-- ==== Sys2Proof/Word.lean ====
section
/-! DEFINITION. The word types of the block and the bit widths of a byte group (00_scope.md R7, R9, R10; 10_state.md R23). -/

namespace Sys2Proof

/-- A byte, 8 bits (R9). -/
abbrev Byte := BitVec 8

/-- A word of the register interface, 32 bits (R23, R56). -/
abbrev Word := BitVec 32

/-- A word offset in the register space: bits 9:2 of the 10-bit byte offset, whose bits 1:0 are not wired (R56, R217). -/
abbrev WordOff := BitVec 8

/-- The candidate bits per value of a group, one of 1, 2, 4, 8 (R7, R80). -/
inductive Width where
  | w1
  | w2
  | w4
  | w8
deriving DecidableEq, Repr

/-- `ceil(a/b) = (a + b - 1) div b` (R10). -/
def ceilDiv (a b : Nat) : Nat := (a + b - 1) / b

end Sys2Proof
end

