-- ==== Sys2Proof/Config.lean ====
section
/-! DEFINITION. The parameters the spec leaves open (00_scope.md R8, 20_memory.md R64; log 1) and the free values
(93_implementation_defined.md U1 to U5, U14; log 4). -/

namespace Sys2Proof

/-- A run of populated plain memory: `size` bytes from `base` (R64, R66). -/
structure Region where
  base : Nat
  size : Nat
deriving DecidableEq, Repr

/-- The parameters of the model: `AW`, `regBase` and the populated addresses (R8, R64, U19). State holds one, which no
step changes, so that a statement about every state is a statement about every value of the parameters. -/
structure Config where
  aw        : Nat
  regBase   : Nat
  populated : List Region
deriving DecidableEq, Repr

/-- DESIGN CHOICE (log 1): the recommended `AW = 32` (R8), the register space at host address 0, all of memory populated. -/
def Config.recommended : Config := { aw := 32, regBase := 0, populated := [{ base := 0, size := 2 ^ 32 }] }

/-- The n-th unspecified byte. No body: nothing can be proved of its value (log 4). -/
opaque Config.freeByte : Nat → Byte

/-- The n-th unspecified register word, for a read while `BUSY = 1` (R36, U5). No body (log 4). -/
opaque Config.freeWord : Nat → Word

end Sys2Proof
end

