-- ==== Sys2Proof/Syntax.lean ====
section
/-! DEFINITION. The rows of spec/opcode_table.json, one constructor each: the eleven commands (30_encoding.md R71), the
four width codes of a header slot (R80) and the format byte (R87). -/

namespace Sys2Proof

inductive Instr where
  /-- NOP (R167). -/
  | nop
  /-- CLR (R168). -/
  | clr
  /-- SEED (R157). -/
  | seed
  /-- ZZ8 with its delta byte (R102). -/
  | zz8 (a : Byte)
  /-- DZ8 with the current raw byte and the predictor byte (R103). -/
  | dz8 (a b : Byte)
  /-- PACK1 (R113). -/
  | pack1
  /-- PACK2 (R114). -/
  | pack2
  /-- PACK4 (R115). -/
  | pack4
  /-- PACK8 (R116). -/
  | pack8
  /-- ENCG (R142). -/
  | encg
  /-- ENCB (R158). -/
  | encb
  /-- Width code 0: the group has width 1 (R80). -/
  | width1
  /-- Width code 1: the group has width 2 (R80). -/
  | width2
  /-- Width code 2: the group has width 4 (R80). -/
  | width4
  /-- Width code 3: the group has width 8 (R80). -/
  | width8
  /-- The format byte of version 1 (R87). -/
  | formatV1
deriving DecidableEq, Repr

end Sys2Proof
end

