-- ==== Sys2Proof/WellFormed.lean ====
section
/-! DEFINITION. What is well formed: the fields of a command word (30_encoding.md R70, R73), an instruction, and the
parameters (00_scope.md R8, 20_memory.md R64). -/

namespace Sys2Proof

/-- The fields of format C (R70). -/
structure CmdFields where
  op     : BitVec 4
  w      : BitVec 2
  zero6  : BitVec 2
  a      : Byte
  b      : Byte
  zero24 : Byte
deriving DecidableEq, Repr

/-- A legal command word: an opcode of R71, the must-be-zero fields zero, and "A field a command does not use must be 0"
(R70, R73). Only PACK uses `w`, only ZZ8 and DZ8 use `a`, only DZ8 uses `b`. -/
abbrev CmdFields.wf (f : CmdFields) : Prop :=
  f.op.toNat ≤ 7 ∧ f.zero6 = 0 ∧ f.zero24 = 0 ∧ (f.w = 0 ∨ f.op = 5) ∧ (f.a = 0 ∨ f.op = 3 ∨ f.op = 4) ∧
    (f.b = 0 ∨ f.op = 4)

/-- An instruction is well formed whatever its operands: each is one whole byte, "used as they are" (R72), so there is no
value of an operand that the encoding does not admit. -/
abbrev Instr.wf : Instr → Prop
  | .nop | .clr | .seed | .zz8 _ | .dz8 _ _ | .pack1 | .pack2 | .pack4 | .pack8 | .encg | .encb => True
  | .width1 | .width2 | .width4 | .width8 | .formatV1 => True

/-- Legal parameters: `8 ≤ AW ≤ 32` (R8); the populated regions lie in the address space, are not empty, ascend, and
leave a gap between neighbours, so that each run of populated addresses is one region. -/
abbrev Config.wf (c : Config) : Prop :=
  8 ≤ c.aw ∧ c.aw ≤ 32 ∧ (∀ r ∈ c.populated, 0 < r.size ∧ r.base + r.size ≤ 2 ^ c.aw) ∧
    c.populated.Pairwise (fun r t => r.base + r.size < t.base)

end Sys2Proof
end

