-- ==== Sys2Proof/Decode.lean ====
section
/-! DEFINITION. Decoding and encoding: the command word (30_encoding.md R70 to R73), the width code of a header slot
(R80, R81), the format byte (R87, R90). -/

namespace Sys2Proof

/-- Why a word is no instruction. -/
inductive Reject where
  /-- `op` in 8..15, "reserved for later versions" (R73). -/
  | reservedOpcode
  /-- A nonzero must-be-zero bit or a nonzero unused operand field (R73). -/
  | reservedBits
  /-- A byte that is not the format byte of version 1 (R90). -/
  | reservedFormatByte
deriving DecidableEq, Repr

/-- A row of the opcode map (R71): the word `c` selects it when `(c and mask) = pattern`. -/
structure CommandRow where
  pattern : Word
  mask    : Word
  build   : Word → Instr

/-- `a = c[15:8]` (R72). -/
def operandA (c : Word) : Byte := c.extractLsb' 8 8

/-- `b = c[23:16]` (R72). -/
def operandB (c : Word) : Byte := c.extractLsb' 16 8

/-- The opcode map (R71). -/
def commandRows : List CommandRow :=
  [ { pattern := 0x00000000, mask := 0xFFFFFFFF, build := fun _ => .nop },
    { pattern := 0x00000001, mask := 0xFFFFFFFF, build := fun _ => .clr },
    { pattern := 0x00000002, mask := 0xFFFFFFFF, build := fun _ => .seed },
    { pattern := 0x00000003, mask := 0xFFFF00FF, build := fun c => .zz8 (operandA c) },
    { pattern := 0x00000004, mask := 0xFF0000FF, build := fun c => .dz8 (operandA c) (operandB c) },
    { pattern := 0x00000005, mask := 0xFFFFFFFF, build := fun _ => .pack1 },
    { pattern := 0x00000015, mask := 0xFFFFFFFF, build := fun _ => .pack2 },
    { pattern := 0x00000025, mask := 0xFFFFFFFF, build := fun _ => .pack4 },
    { pattern := 0x00000035, mask := 0xFFFFFFFF, build := fun _ => .pack8 },
    { pattern := 0x00000006, mask := 0xFFFFFFFF, build := fun _ => .encg },
    { pattern := 0x00000007, mask := 0xFFFFFFFF, build := fun _ => .encb } ]

/-- A row is selected by a word (R71). -/
def CommandRow.selects (r : CommandRow) (c : Word) : Bool := c &&& r.mask == r.pattern

/-- The command a word stands for, or why it is illegal (R71, R73). -/
def decodeCommand (c : Word) : Except Reject Instr :=
  match commandRows.find? (·.selects c) with
  | some r => .ok (r.build c)
  | none => if 8 ≤ (c.extractLsb' 0 4).toNat then .error .reservedOpcode else .error .reservedBits

/-- The width code of a header slot: "All four codes are used; none is reserved" (R80). -/
def decodeSlot (c : BitVec 2) : Instr :=
  match c.toNat with
  | 0 => .width1
  | 1 => .width2
  | 2 => .width4
  | _ => .width8

/-- The format byte: `0xA1` and nothing else (R87, R90). -/
def decodeTag (b : Byte) : Except Reject Instr :=
  if b = 0xA1 then .ok .formatV1 else .error .reservedFormatByte

/-- A byte with the tag `0b1010` in bits 7:4 is a format byte (R87). DESIGN CHOICE (log 14): this is how a table word of
fewer than 32 bits is told to be a format byte and not a header byte. -/
def isTag (b : Byte) : Bool := b.extractLsb' 4 4 == 0xA#4

/-- The slot of a table word of format SEL2: "match and mask are on the 2-bit slot value", bits 1:0 (R80, R81). -/
def slotBits (b : Byte) : BitVec 2 := b.extractLsb' 0 2

/-- The instruction read from a table word of `nbits` bits (log 14): a row of 32 bits is a command word, a shorter one a
format byte or a width code. -/
def decodeTableWord (nbits w : Nat) : Option Instr :=
  if 16 < nbits then (decodeCommand (BitVec.ofNat 32 w)).toOption
  else
    let b : Byte := BitVec.ofNat 8 w
    if isTag b then (decodeTag b).toOption else some (decodeSlot (slotBits b))

/-- A command word from its fields (R70). -/
def wordOf (f : CmdFields) : Word := f.zero24 ++ f.b ++ f.a ++ f.zero6 ++ f.w ++ f.op

/-- The fields of a command word (R70). -/
def fieldsOf (c : Word) : CmdFields :=
  { op := c.extractLsb' 0 4, w := c.extractLsb' 4 2, zero6 := c.extractLsb' 6 2, a := operandA c, b := operandB c,
    zero24 := c.extractLsb' 24 8 }

/-- A command's fields: `op`, `w` and the operand bytes it uses, the rest 0 (R70, R71). -/
def cmdFields (op : BitVec 4) (w : BitVec 2) (a b : Byte) : CmdFields :=
  { op := op, w := w, zero6 := 0, a := a, b := b, zero24 := 0 }

/-- The word of a command (R71); of a width code and of the format byte, its bits above zeros. -/
def commandWord : Instr → Word
  | .nop => wordOf (cmdFields 0 0 0 0)
  | .clr => wordOf (cmdFields 1 0 0 0)
  | .seed => wordOf (cmdFields 2 0 0 0)
  | .zz8 a => wordOf (cmdFields 3 0 a 0)
  | .dz8 a b => wordOf (cmdFields 4 0 a b)
  | .pack1 => wordOf (cmdFields 5 0 0 0)
  | .pack2 => wordOf (cmdFields 5 1 0 0)
  | .pack4 => wordOf (cmdFields 5 2 0 0)
  | .pack8 => wordOf (cmdFields 5 3 0 0)
  | .encg => wordOf (cmdFields 6 0 0 0)
  | .encb => wordOf (cmdFields 7 0 0 0)
  | .width1 => 0
  | .width2 => 1
  | .width4 => 2
  | .width8 => 3
  | .formatV1 => 0xA1

/-- The eleven commands, the rows of format C (R166). -/
def isCommand : Instr → Bool
  | .nop | .clr | .seed | .zz8 _ | .dz8 _ _ | .pack1 | .pack2 | .pack4 | .pack8 | .encg | .encb => true
  | .width1 | .width2 | .width4 | .width8 | .formatV1 => false

/-- The encoding of an instruction, numbered as the opcode table numbers it: how many bits, in whole bytes, and the bits. -/
def encode (i : Instr) : Nat × Nat := (if isCommand i then 32 else 8, (commandWord i).toNat)

end Sys2Proof
end

