-- ==== Sys2Proof/Machine/State.lean ====
section
/-! DEFINITION. The state of the machine (10_state.md; INVENTORY.md, State), the reasons a step stops, and the state
after reset (10_state.md R41). -/

namespace Sys2Proof.Machine

/-- Memory: the listed bytes, addresses rising, none equal to what an unlisted address reads as (R50). -/
abbrev Memory := List Host.Cell

/-- An entry of `LV` or `DB`: its byte, and whether the spec says what it holds (R22, R33, R34). -/
structure Entry where
  val       : Byte
  specified : Bool
deriving DecidableEq, Repr

/-- A file of 256 bytes (R20, R22). -/
abbrev ByteFile := Vector Entry 256

/-- The names of the cause codes (R195). -/
inductive Cause where
  | none
  | capacity
  | inapplicable
  | opcode
  | vsize
  | count
  | lvinvalid
  | range
deriving DecidableEq, Repr

/-- The inputs of a stream call (R175, R186): the address `S` of the record array, the address `O` and the size `cap` of
the destination, the record size and the record count. -/
structure StreamCall where
  src   : Nat
  out   : Nat
  cap   : Nat
  vs    : Nat
  count : Nat
deriving DecidableEq, Repr

/-- What a stream call has given back (R175, R191). -/
inductive StreamResult where
  /-- No call has ended since the last one began. -/
  | none
  /-- The call returned the length of the stream, or 0 for a capacity failure (R175). -/
  | returned (n : Nat)
  /-- "a programming-error signal distinct from capacity exhaustion" (R191). -/
  | programmingError
deriving DecidableEq, Repr

/-- The reader of the wire format (R144): the address of the next payload byte and the values read so far. -/
structure Reader where
  pos    : Nat
  values : List Byte
deriving DecidableEq, Repr

/-- An action of the host's script (R74), of its stream procedure (R186), of the reader (R144), of the reset pin (R215),
or of the block finishing a command (R165). -/
inductive HostAction where
  /-- `WR <register>, <value>`; at offset 0 a command, accepted and completed in one transition (R74, R165, R170). -/
  | wr (off : WordOff) (v : Word)
  /-- `RD <register>` (R74). -/
  | rd (off : WordOff)
  /-- `MEMW <address>, <bytes>` (R74). -/
  | memw (addr : Nat) (bytes : List Byte)
  /-- `MEMR <address>, <count>` (R74). -/
  | memr (addr n : Nat)
  /-- `WAIT` (R74). -/
  | wait
  /-- A write to `CMD` after which the block stays busy (R36, R165; log 6). -/
  | start (c : Word)
  /-- The block completes the command in flight (R165; log 6). -/
  | blockCompletes
  /-- A rising edge of `clk` with `rst = 1` (R215). -/
  | rstHigh
  /-- `rst` goes to 0 (R215). -/
  | rstLow
  /-- The format byte `b` is the next byte of the stream (R87, R176). -/
  | tag (b : Byte)
  /-- The reader takes a group of width code `c` (R80, R144). -/
  | slot (c : BitVec 2)
  /-- The reader goes to an address and forgets the values it has read. -/
  | readAt (addr : Nat)
  /-- The reader takes the header of a channel of `groups` groups (R81, R144). -/
  | readChannel (groups : Nat)
  /-- The host encodes a record array (R186). -/
  | encodeStream (c : StreamCall)
  /-- The test of `STATUS` after the SEED of the stream procedure: "expect ERR = 0" (R186). -/
  | checkSeed
  /-- The test of `STATUS` after an ENCB of the stream procedure (R186). -/
  | checkBlock
  /-- The stream procedure writes the tail and returns (R186). -/
  | finishStream
  /-- The stream procedure returns a number (R186). -/
  | giveBack (n : Nat)
  /-- A write on the host's bus (R64). -/
  | busWr (addr : Nat) (v : Word)
  /-- A read on the host's bus (R64). -/
  | busRd (addr : Nat)
deriving DecidableEq, Repr

structure State where
  /-- The parameters (R8, R64). -/
  cfg        : Config
  /-- Predictor file `LV` (R20). -/
  lv         : ByteFile
  /-- Delta buffer `DB` (R22). -/
  db         : ByteFile
  /-- The word of the command in progress; `STATUS.BUSY` is whether there is one (R25, R165). -/
  inFlight   : Option Word
  /-- `STATUS.DONE` (R25). -/
  done       : Bool
  /-- `STATUS.FAIL` (R25). -/
  fail       : Bool
  /-- `STATUS.ERR` (R25). -/
  err        : Bool
  /-- `STATUS.LVVALID` (R21, R25). -/
  lvvalid    : Bool
  /-- `STATUS.CAUSE` (R25, R195). -/
  cause      : Cause
  /-- `VSIZE` (R26). -/
  vsize      : BitVec 9
  /-- `VCOUNT` (R27). -/
  vcount     : BitVec 9
  /-- `GLEN` (R28). -/
  glen       : BitVec 9
  /-- `SRC` (R29). -/
  src        : Word
  /-- `DST` (R30). -/
  dst        : Word
  /-- `DEND` (R31). -/
  dend       : Word
  /-- `RESULT` (R32). -/
  result     : Word
  /-- The level of the reset input (R215, R217). -/
  rst        : Bool
  /-- The memory (R50). -/
  mem        : Memory
  /-- The host's remaining actions (R40, R74). -/
  script     : List HostAction
  /-- The last register value the host read (R169, R217). -/
  rdata      : Word
  /-- The last bytes the host read from memory (R74). -/
  mdata      : List Byte
  /-- The reader of the wire format (R144). -/
  reader     : Reader
  /-- The stream call in progress (R175). -/
  call       : StreamCall
  /-- What the last stream call gave back (R175, R191). -/
  callResult : StreamResult
  /-- The model's own: how many free values have been taken (log 4). -/
  draws      : Nat
deriving DecidableEq, Repr

/-- Why the machine stops. -/
inductive Fault where
  /-- The host or the reader touches an address outside the `2^AW` bytes of memory (R50). Raised by the script actions on
  memory and by WIDTH2, WIDTH4, WIDTH8, FORMAT_V1. Safe: the spec has no such address (log 11). -/
  | addressOutsideSpace
deriving DecidableEq, Repr

/-- Why the model gives a case no meaning. -/
inductive Refusal where
  /-- An instruction without a meaning. No arm of exec says so. Safe. -/
  | notModelled (mnemonic : String)
  /-- Memory that is not populated is touched: "a refusal otherwise" (R66, R207, U7). Raised by the commands that reach
  memory, the script actions on memory, the reader, and a reset in mid-command. Safe (log 10). -/
  | unpopulatedMemory
  /-- The host or the reader touches a byte of the command in flight (R60, R207, U6). Raised by the script actions on
  memory, the reader and FORMAT_V1. Safe (log 9). -/
  | handOffBroken
  /-- A stream call with no records: "a model refuses `count = 0`" (R185, U11). Raised by `encodeStream`. Safe. -/
  | emptyRecordArray
  /-- A format byte other than `0xA1` (R90, U10). Raised by `tag`. Safe. -/
  | reservedFormatByte
  /-- A bus access that is not an aligned word of the register space (R56, R64). Raised by `busWr`, `busRd`. Safe
  (log 13). -/
  | outsideRegisterSpace
deriving DecidableEq, Repr

/-- What a step, an instruction or an action ends in. -/
abbrev Result := Host.Outcome State Fault Refusal

/-- A file of which the spec says nothing: every entry unspecified. DESIGN CHOICE (log 2): the byte kept is 0. -/
def unspecifiedFile : ByteFile := Vector.replicate 256 { val := 0, specified := false }

/-- The state after reset (R41), with the memory untouched by any program and nothing in the host's script. The values the
spec does not give are DESIGN CHOICE (logs 1, 2, 3, 4, 5, 7, 12, 15). -/
def State.reset : State :=
  { cfg := Config.recommended
    lv := unspecifiedFile
    db := unspecifiedFile
    inFlight := none
    done := false
    fail := false
    err := false
    lvvalid := false
    cause := .none
    vsize := 0
    vcount := 0
    glen := 0
    src := 0
    dst := 0
    dend := 0
    result := 0
    rst := false
    mem := []
    script := []
    rdata := 0
    mdata := []
    reader := { pos := 0, values := [] }
    call := { src := 0, out := 0, cap := 0, vs := 0, count := 0 }
    callResult := .none
    draws := 0 }

end Sys2Proof.Machine
end

