-- ==== Sys2Proof/Machine/Constants.lean ====
section
/-! DEFINITION. The constants of the source (00_scope.md R7), the offsets of the register map (10_state.md R23), and the
numbers of a width (30_encoding.md R80). -/

namespace Sys2Proof.Machine

/-- `GROUP` (R7). -/
def groupSize : Nat := 16
/-- `DECODE_LIMIT` (R7). -/
def decodeLimit : Nat := 24
/-- `BLOCK_MAX` (R7). -/
def blockMax : Nat := 256
/-- `BLOCK_BYTES` (R7). -/
def blockBytes : Nat := 8192
/-- `TAIL_MIN` (R7). -/
def tailMin : Nat := 32
/-- `TAG` (R7). -/
def formatTag : Byte := 0xA0
/-- `VERSION` (R7). -/
def formatVersion : Byte := 1
/-- The format byte: "`0xA0 or version`" (R87). -/
def formatByte : Byte := formatTag ||| formatVersion

/-- Word offset of `CMD`, byte offset 0x000 (R23). -/
def offCmd : WordOff := 0
/-- `STATUS`, 0x004 (R23). -/
def offStatus : WordOff := 1
/-- `VSIZE`, 0x008 (R23). -/
def offVsize : WordOff := 2
/-- `VCOUNT`, 0x00C (R23). -/
def offVcount : WordOff := 3
/-- `GLEN`, 0x010 (R23). -/
def offGlen : WordOff := 4
/-- `SRC`, 0x014 (R23). -/
def offSrc : WordOff := 5
/-- `DST`, 0x018 (R23). -/
def offDst : WordOff := 6
/-- `DEND`, 0x01C (R23). -/
def offDend : WordOff := 7
/-- `RESULT`, 0x020 (R23). -/
def offResult : WordOff := 8
/-- `LVW[0]`, 0x100, the first of 64 (R23, R33). -/
def offLvw : WordOff := 64
/-- `DBW[0]`, 0x200, the first of 64 (R23, R34). -/
def offDbw : WordOff := 128
/-- The number of words in a window on a byte file (R33, R34). -/
def windowWords : Nat := 64

/-- Bits per value (R80). -/
def widthBits : Width → Nat
  | .w1 => 1
  | .w2 => 2
  | .w4 => 4
  | .w8 => 8

/-- `width_code(b) = log2(b)` (R80). -/
def widthCode : Width → Nat
  | .w1 => 0
  | .w2 => 1
  | .w4 => 2
  | .w8 => 3

/-- The width `2^code` of a 2-bit code (R72, R80). -/
def widthOfCode : Nat → Width
  | 0 => .w1
  | 1 => .w2
  | 2 => .w4
  | _ => .w8

/-- `byte_size = 8 div b` (R80, R110). -/
def byteSize (b : Width) : Nat := 8 / widthBits b

/-- `sentinel = 2^b - 1` (R80, R110). -/
def sentinel (b : Width) : Nat := 2 ^ widthBits b - 1

end Sys2Proof.Machine
end

