-- ==== Sys2Proof/Machine/Ops.lean ====
section
/-! DEFINITION. The named operations over memory, the byte files and the registers (20_memory.md R50 to R54, R59;
10_state.md R20 to R35, R42), and raising and clearing a failure (60_exceptions.md R193, R194, R205). -/

namespace Sys2Proof.Machine

/-- What an address that memory does not list reads as. DESIGN CHOICE (log 3): the spec gives no contents. -/
def Memory.unlisted : Byte := 0

/-- The canonical form: addresses strictly rising, and no entry equal to what an unlisted address reads as. -/
abbrev Memory.wf (m : Memory) : Prop :=
  m.Pairwise (fun c d => c.1 < d.1) ∧ ∀ c ∈ m, c.2 ≠ Memory.unlisted

/-- One byte (R53). -/
def Memory.read (m : Memory) (a : Nat) : Byte :=
  match m.find? (fun c => c.1 == a) with
  | some c => c.2
  | none => Memory.unlisted

/-- `MemRead(addr, n)`: "element 0 from `addr`" (R53). -/
def Memory.readBytes (m : Memory) (a n : Nat) : List Byte := (List.range n).map fun j => m.read (a + j)

/-- The entries that hold the bytes `v` from address `a` up, those equal to the unlisted byte left out. -/
def Memory.entries (a : Nat) : List Byte → Memory
  | [] => []
  | b :: v => if b = Memory.unlisted then Memory.entries (a + 1) v else (a, b) :: Memory.entries (a + 1) v

/-- `MemWrite(addr, n, v)`: "stores `v[j]` at address `addr + j`" (R54). -/
def Memory.write (m : Memory) (a : Nat) (v : List Byte) : Memory :=
  m.filter (fun c => c.1 < a) ++ (Memory.entries a v ++ m.filter (fun c => a + v.length ≤ c.1))

/-- Every address in `[lo, hi)` is populated (R66). The regions are apart (Config.wf), so a run of populated addresses
lies in one of them. -/
def covers (c : Config) (lo hi : Nat) : Bool :=
  decide (hi ≤ lo) || c.populated.any fun r => decide (r.base ≤ lo) && decide (hi ≤ r.base + r.size)

/-- The `n` next free bytes (log 4). -/
def State.freeBytes (s : State) (n : Nat) : List Byte := (List.range n).map fun j => Config.freeByte (s.draws + j)

/-- Bytes `[a, a+n)` take free values (R42, R216). -/
def State.spoil (s : State) (a n : Nat) : State :=
  { s with mem := s.mem.write a (s.freeBytes n), draws := s.draws + n }

/-- `cap = R.DEND - R.DST` (R31). -/
def State.capacity (s : State) : Nat := s.dend.toNat - s.dst.toNat

/-- The whole window `[DST, DEND)` takes free values (R42, R216). -/
def State.spoilWindow (s : State) : State := s.spoil s.dst.toNat s.capacity

/-- Bits `AW-1:0` of a number, as an address register keeps them (R29, R30, R31). -/
def addrBits (c : Config) (v : Nat) : Word := BitVec.ofNat 32 (v % 2 ^ c.aw)

/-- A successful operation that produced `out`: the bytes at the cursor, the rest of the window free (R42, R59), `RESULT`
their number and `DST` advanced by it (R30, R32). -/
def State.produce (s : State) (out : List Byte) : State :=
  let rest := s.capacity - out.length
  { s with
    mem := s.mem.write s.dst.toNat (out ++ s.freeBytes rest)
    draws := s.draws + rest
    result := BitVec.ofNat 32 out.length
    dst := addrBits s.cfg (s.dst.toNat + out.length) }

/-- Entry `k` of a byte file (R20, R22). -/
def ByteFile.entry (f : ByteFile) (k : Nat) : Entry := f.toList.getD k { val := 0, specified := false }

/-- The bytes of entries `0 .. n-1`. -/
def ByteFile.bytes (f : ByteFile) (n : Nat) : List Byte := (f.toList.take n).map Entry.val

/-- `F[k] <- v[k]` for each `k < len(v)`; the other entries are not touched (R22, R155, R157). -/
def ByteFile.overwrite (f : ByteFile) (v : List Byte) : ByteFile :=
  Vector.mk ((v.take 256).map (fun b => Entry.mk b true) ++ f.toList.drop (v.take 256).length).toArray
    (by simp only [List.size_toArray, List.length_append, List.length_map, List.length_drop, Vector.length_toList]
        have := List.length_take_le 256 v
        omega)

/-- What a read through a window sees of an entry: its byte, or a free value where "the entry reads as an unspecified byte"
(R33, R34). -/
def Entry.seen (e : Entry) (draw : Nat) : Byte := if e.specified then e.val else Config.freeByte draw

/-- Word `j` of a window: `F[4j]` in bits 7:0 (R33, R34). -/
def ByteFile.windowWord (f : ByteFile) (j draw : Nat) : Word :=
  (f.entry (4 * j + 3)).seen (draw + 3) ++ (f.entry (4 * j + 2)).seen (draw + 2) ++
    (f.entry (4 * j + 1)).seen (draw + 1) ++ (f.entry (4 * j)).seen draw

/-- `raise Fail(cause)`: the flag, the cause and `RESULT`; `DST`, `LV` and the configuration stay (R193). What becomes of
the window and of `DB` is the command's rule. -/
def State.raiseFail (s : State) (c : Cause) : State := { s with fail := true, cause := c, result := 0 }

/-- `raise Err(cause)`: the flag, the cause and `RESULT`, "everything else unchanged, memory included" (R194). -/
def State.raiseErr (s : State) (c : Cause) : State := { s with err := true, cause := c, result := 0 }

/-- The effect of CLR, "trap return": the flags and the cause cleared, `RESULT` 0; it restores nothing (R168, R205). -/
def State.clearFailure (s : State) : State := { s with fail := false, err := false, cause := .none, result := 0 }

/-- The block's state at a reset: every control and status register 0, `LV` and `DB` unspecified; the memory, the host's
state and the parameters are not the block's (R41, R215). -/
def State.blockReset (s : State) : State :=
  { s with
    lv := unspecifiedFile
    db := unspecifiedFile
    inFlight := none
    done := false
    fail := false
    err := false
    lvvalid := false
    cause := .none
    vsize := 0
    vcount := 0
    glen := 0
    src := 0
    dst := 0
    dend := 0
    result := 0 }

end Sys2Proof.Machine
end

