-- ==== Sys2Proof/Machine/Operands.lean ====
section
/-! DEFINITION. The operand forms: the bytes at `SRC` (20_memory.md R52, R58), the records at `SRC` (44 R150, R158), the
window `[DST, DEND)` (R31, R52), the legal values of the size registers (10_state.md R26 to R28), the checks made at
acceptance in their order (60_exceptions.md R196, R199; R65), and what the hand-off rule guards (R60). -/

namespace Sys2Proof.Machine

/-- The 64 legal record sizes 4, 8, .., 256 (R26). -/
def legalRecordSize (n : Nat) : Bool := decide (0 < n) && decide (n ≤ 256) && decide (n % 4 = 0)

/-- `VSIZE` is legal (R26). -/
def State.vsizeLegal (s : State) : Bool := legalRecordSize s.vsize.toNat

/-- `VCOUNT` is legal for ENCB: 1 .. 256 (R27). -/
def State.vcountLegal (s : State) : Bool := decide (1 ≤ s.vcount.toNat) && decide (s.vcount.toNat ≤ blockMax)

/-- `GLEN` is legal for ENCG: 16, 32, .., 256 (R28). -/
def State.glenLegal (s : State) : Bool :=
  decide (groupSize ≤ s.glen.toNat) && decide (s.glen.toNat ≤ 256) && decide (s.glen.toNat % groupSize = 0)

/-- How many bytes an instruction reads at `SRC` (R52). -/
def sourceLength (i : Instr) (s : State) : Nat :=
  match i with
  | .seed => s.vsize.toNat
  | .pack1 | .pack2 | .pack4 | .pack8 => groupSize
  | .encg => s.glen.toNat
  | .encb => s.vcount.toNat * s.vsize.toNat
  | .nop | .clr | .zz8 _ | .dz8 _ _ | .width1 | .width2 | .width4 | .width8 | .formatV1 => 0

/-- Whether an instruction writes within `[DST, DEND)` (R52). -/
def usesWindow (i : Instr) : Bool :=
  match i with
  | .pack1 | .pack2 | .pack4 | .pack8 | .encg | .encb => true
  | .nop | .clr | .seed | .zz8 _ | .dz8 _ _ | .width1 | .width2 | .width4 | .width8 | .formatV1 => false

/-- The range check: the source wraps, `DST > DEND`, or the source meets the window (R65). -/
def rangeFails (i : Instr) (s : State) : Bool :=
  let n := sourceLength i s
  decide (2 ^ s.cfg.aw < s.src.toNat + n) ||
    (usesWindow i &&
      (decide (s.dend.toNat < s.dst.toNat) ||
        (decide (s.dst.toNat < s.dend.toNat) && decide (s.src.toNat < s.dend.toNat) &&
          decide (s.dst.toNat < s.src.toNat + n))))

/-- The first of a list of checks that fails (R199). -/
def firstFailing : List (Bool × Cause) → Option Cause
  | [] => none
  | (fails, c) :: rest => if fails then some c else firstFailing rest

/-- The precondition a command violates, the first in the order VSIZE, COUNT, LVINVALID, RANGE (R196, R199). -/
def firstError (i : Instr) (s : State) : Option Cause :=
  match i with
  | .seed => firstFailing [(!s.vsizeLegal, .vsize), (rangeFails .seed s, .range)]
  | .pack1 => firstFailing [(rangeFails .pack1 s, .range)]
  | .pack2 => firstFailing [(rangeFails .pack2 s, .range)]
  | .pack4 => firstFailing [(rangeFails .pack4 s, .range)]
  | .pack8 => firstFailing [(rangeFails .pack8 s, .range)]
  | .encg => firstFailing [(!s.glenLegal, .count), (rangeFails .encg s, .range)]
  | .encb =>
    firstFailing
      [(!s.vsizeLegal, .vsize), (!s.vcountLegal, .count), (!s.lvvalid, .lvinvalid), (rangeFails .encb s, .range)]
  | .nop | .clr | .zz8 _ | .dz8 _ _ | .width1 | .width2 | .width4 | .width8 | .formatV1 => none

/-- The premise of a command: every byte of its source and of its window is populated plain memory (R66, U7; log 10). -/
def footprintPopulated (i : Instr) (s : State) : Bool :=
  covers s.cfg s.src.toNat (s.src.toNat + sourceLength i s) &&
    (!usesWindow i || covers s.cfg s.dst.toNat s.dend.toNat)

/-- The bytes a command reads at `SRC` (R58). -/
def State.sourceBytes (s : State) (n : Nat) : List Byte := s.mem.readBytes s.src.toNat n

/-- The records of ENCB: `recs[i][k]` is the byte at `SRC + i*VSIZE + k` (R58, R150, R158). -/
def State.records (s : State) : List (List Byte) :=
  (List.range s.vcount.toNat).map fun i => s.mem.readBytes (s.src.toNat + i * s.vsize.toNat) s.vsize.toNat

/-- The checks of a command in order, then its premise, then its operation (R66, R199). -/
def checked (i : Instr) (op : State → Result) (s : State) : Result :=
  match firstError i s with
  | some c => .next (s.raiseErr c)
  | none => if footprintPopulated i s then op s else .refused .unpopulatedMemory

/-- The runs `[a, a+n)` and `[lo, hi)` have an address in common. -/
def meets (a n lo hi : Nat) : Bool := decide (0 < n) && decide (lo < hi) && decide (a < hi) && decide (lo < a + n)

/-- The command in flight, when its word is one (R165). -/
def State.commandInFlight (s : State) : Option Instr := s.inFlight.bind fun c => (decodeCommand c).toOption

/-- The hand-off rule for an access of `[a, a+n)` by anyone but the block: while a command is in flight no byte it reads is
written and no byte of its window is read or written (R60, R225; log 9). -/
def State.handOffKept (s : State) (a n : Nat) (writes : Bool) : Bool :=
  match s.commandInFlight with
  | none => true
  | some i =>
    !(usesWindow i && meets a n s.dst.toNat s.dend.toNat) &&
      !(writes && meets a n s.src.toNat (s.src.toNat + sourceLength i s))

/-- An access of `[a, a+n)` by the host or the reader: outside the address space it faults (R50; log 11); unpopulated
memory and a broken hand-off rule are refused (R60, R66, R207). An access of no byte touches nothing. -/
def hostAccess (s : State) (a n : Nat) (writes : Bool) (go : Result) : Result :=
  if 0 < n ∧ 2 ^ s.cfg.aw < a + n then .fault .addressOutsideSpace
  else if !covers s.cfg a (a + n) then .refused .unpopulatedMemory
  else if !s.handOffKept a n writes then .refused .handOffBroken
  else go

end Sys2Proof.Machine
end

