-- ==== Sys2Proof/Machine/Flags.lean ====
section
/-! DEFINITION. `STATUS` and its flags (10_state.md R21, R25, R39), the cause codes (60_exceptions.md R195), and when a
write to `CMD` is accepted (45_control_commands.md R165). -/

namespace Sys2Proof.Machine

/-- `STATUS.BUSY`: a command is in progress (R25). -/
def State.busy (s : State) : Bool := s.inFlight.isSome

/-- The 4-bit code of a cause (R195). -/
def causeCode : Cause → BitVec 4
  | .none => 0
  | .capacity => 1
  | .inapplicable => 2
  | .opcode => 8
  | .vsize => 9
  | .count => 10
  | .lvinvalid => 11
  | .range => 12

/-- A flag as one bit. -/
def flagBit (b : Bool) : BitVec 1 := if b then 1 else 0

/-- `STATUS` as the host reads it; bits 7:5 and 31:12 read 0 (R25). -/
def State.statusWord (s : State) : Word :=
  (0 : BitVec 20) ++ causeCode s.cause ++ (0 : BitVec 3) ++ flagBit s.lvvalid ++ flagBit s.err ++ flagBit s.fail ++
    flagBit s.done ++ flagBit s.busy

/-- Whether the block ignores a write of `c` to `CMD`: while it is held in reset (R215), while it is busy, and while `FAIL`
or `ERR` is 1 unless `c` is exactly the word of CLR (R165). -/
def State.ignoresCommand (s : State) (c : Word) : Bool :=
  s.rst || s.busy || ((s.fail || s.err) && c != 0x00000001)

/-- Acceptance of the word `c`: `BUSY <- 1`, `DONE <- 0` (R165). -/
def State.accept (s : State) (c : Word) : State := { s with inFlight := some c, done := false }

/-- Completion: `BUSY <- 0`, `DONE <- 1` (R165). -/
def State.complete (s : State) : State := { s with inFlight := none, done := true }

/-- The effect of an instruction on `RESULT` alone (R32). -/
def State.setResult (s : State) (v : Word) : State := { s with result := v }

end Sys2Proof.Machine
end

