-- ==== Sys2Proof/Machine/Control.lean ====
section
/-! DEFINITION. Control: acceptance and completion of a command, NOP, CLR, and the host's register operations
(45_control_commands.md R165 to R169; 10_state.md R23 to R36). -/

namespace Sys2Proof.Machine

/-- What a write of the word `c` to `CMD` does, when the rule of `c` is `run`: ignored, or accepted, run and completed
"whatever the outcome" (R165). One transition (R170). -/
def command (c : Word) (run : State → Result) (s : State) : Result :=
  if s.ignoresCommand c then .next s
  else
    match run (s.accept c) with
    | .next t => .next t.complete
    | .fault r => .fault r
    | .refused r => .refused r

/-- A word of no row of the opcode map: `Err(OPCODE)` and nothing else (R73, R197). -/
def illegalCommand (c : Word) (s : State) : Result := command c (fun t => .next (t.raiseErr .opcode)) s

/-- NOP: `R.RESULT <- 0` (R167). -/
def execNop (s : State) : Result := command (commandWord .nop) (fun t => .next (t.setResult 0)) s

/-- CLR (R168). -/
def execClr (s : State) : Result := command (commandWord .clr) (fun t => .next t.clearFailure) s

/-- The value of the register at word offset `off` while the block is idle (R23, R24 to R35). -/
def State.registerValue (s : State) (off : WordOff) : Word :=
  if off = offStatus then s.statusWord
  else if off = offVsize then s.vsize.setWidth 32
  else if off = offVcount then s.vcount.setWidth 32
  else if off = offGlen then s.glen.setWidth 32
  else if off = offSrc then s.src
  else if off = offDst then s.dst
  else if off = offDend then s.dend
  else if off = offResult then s.result
  else if offLvw.toNat ≤ off.toNat ∧ off.toNat < offLvw.toNat + windowWords then
    ByteFile.windowWord s.lv (off.toNat - offLvw.toNat) s.draws
  else if offDbw.toNat ≤ off.toNat ∧ off.toNat < offDbw.toNat + windowWords then
    ByteFile.windowWord s.db (off.toNat - offDbw.toNat) s.draws
  else 0

/-- What the host reads: while `BUSY = 1`, `STATUS` as it is and "an unspecified value" of any other register (R36). -/
def State.readValue (s : State) (off : WordOff) : Word :=
  if s.busy && off != offStatus then Config.freeWord s.draws else s.registerValue off

/-- `RegRead(off)`: no side effect on the block (R35, R169). Every read takes four free values, one a lane (log 4). -/
def regRead (off : WordOff) (s : State) : State := { s with rdata := s.readValue off, draws := s.draws + 4 }

/-- A host write of `VSIZE`: bits 8:0, whatever their value, and `LVVALID` cleared (R21, R26). -/
def State.writeVsize (s : State) (v : Word) : State := { s with vsize := v.extractLsb' 0 9, lvvalid := false }

/-- `RegWrite(off, v)` at an offset other than that of `CMD`: the implemented bits are stored; a read-only or reserved
register ignores it; so does every register while `BUSY = 1` or `rst = 1` (R35, R36, R169, R215). -/
def regWrite (off : WordOff) (v : Word) (s : State) : State :=
  if s.rst || s.busy then s
  else if off = offVsize then s.writeVsize v
  else if off = offVcount then { s with vcount := v.extractLsb' 0 9 }
  else if off = offGlen then { s with glen := v.extractLsb' 0 9 }
  else if off = offSrc then { s with src := addrBits s.cfg v.toNat }
  else if off = offDst then { s with dst := addrBits s.cfg v.toNat }
  else if off = offDend then { s with dend := addrBits s.cfg v.toNat }
  else s

end Sys2Proof.Machine
end

