-- ==== Sys2Proof/Machine/Escape.lean ====
section
/-! DEFINITION. Sub-unit ESC, the escape byte handler (42_escape_byte_handler.md), and the reference decoding of a group
(R130, R85), which is not hardware. -/

namespace Sys2Proof.Machine

/-- `is_escaped(v, b) = (v >= sentinel)`, unsigned (R126). -/
def isEscaped (b : Width) (v : Byte) : Bool := decide (sentinel b ≤ v.toNat)

/-- `clamp_field(v, b)`: the value, or the sentinel (R125). -/
def clampField (b : Width) (v : Byte) : Byte := if isEscaped b v then BitVec.ofNat 8 (sentinel b) else v

/-- `escapes(g, b)`: the escaped values in ascending index order (R127). -/
def escapes (b : Width) (g : List Byte) : List Byte := g.filter (isEscaped b)

/-- The field of lane `i` in a payload: "lowest index in the top bits" (R130). -/
def laneField (p : List Byte) (b : Width) (i : Nat) : Nat :=
  let bs := byteSize b
  let shift := widthBits b * (bs - 1 - i % bs)
  (p.getD (i / bs) 0).toNat / 2 ^ shift % 2 ^ widthBits b

/-- The lanes of a payload of width 2 or 4 from a list of lane numbers; `e` is the index of the next escape byte (R130). -/
def unpackLanes (p : List Byte) (b : Width) : List Nat → Nat → List Byte × Nat
  | [], e => ([], e)
  | i :: rest, e =>
    if laneField p b i = sentinel b then
      (p.getD e 0 :: (unpackLanes p b rest (e + 1)).1, (unpackLanes p b rest (e + 1)).2)
    else (BitVec.ofNat 8 (laneField p b i) :: (unpackLanes p b rest e).1, (unpackLanes p b rest e).2)

/-- `unpack_group(p, b)`: the 16 values and the number of bytes consumed (R130). -/
def unpackGroup (p : List Byte) (b : Width) : List Byte × Nat :=
  match b with
  | .w1 => (List.replicate groupSize 0, 0)
  | .w8 => (p.take groupSize, groupSize)
  | .w2 => unpackLanes p .w2 (List.range groupSize) (groupSize / byteSize .w2)
  | .w4 => unpackLanes p .w4 (List.range groupSize) (groupSize / byteSize .w4)

/-- How a reader tells the length of a group's payload from its width and its fixed bytes (R85). -/
def payloadLength (p : List Byte) (b : Width) : Nat :=
  let sentinels := (List.range groupSize).countP fun i => laneField p b i == sentinel b
  match b with
  | .w1 => 0
  | .w2 => 4 + sentinels
  | .w4 => 8 + sentinels
  | .w8 => 16

end Sys2Proof.Machine
end

