-- ==== Sys2Proof/Machine/Packer.lean ====
section
/-! DEFINITION. Sub-unit PK, the adaptive bit-width packer, and its commands PACK1, PACK2, PACK4, PACK8
(41_bitwidth_packer.md). -/

namespace Sys2Proof.Machine

/-- `packed_size(g, b)`, `none` for `Inapplicable` (R111). -/
def packedSize (g : List Byte) (b : Width) : Option Nat :=
  match b with
  | .w1 => if g.all (· == 0) then some 0 else none
  | .w2 => some (4 + g.countP (fun v => decide (3 ≤ v.toNat)))
  | .w4 => some (8 + g.countP (fun v => decide (15 ≤ v.toNat)))
  | .w8 => some 16

/-- `fixed_byte(g, b, j)`: ascending lanes, the lowest index ends most significant (R83, R112). -/
def fixedByte (g : List Byte) (b : Width) (j : Nat) : Byte :=
  (List.range (byteSize b)).foldl
    (fun byte t => byte <<< widthBits b ||| clampField b (g.getD (j * byteSize b + t) 0)) 0

/-- The fixed part of a payload of width 2 or 4 (R83, R112). -/
def fixedBytes (g : List Byte) (b : Width) : List Byte :=
  (List.range (groupSize / byteSize b)).map (fixedByte g b)

/-- The payload of a group at a width that applies (R84, R112). -/
def payload (g : List Byte) (b : Width) : List Byte :=
  match b with
  | .w1 => []
  | .w2 => fixedBytes g .w2 ++ escapes .w2 g
  | .w4 => fixedBytes g .w4 ++ escapes .w4 g
  | .w8 => g

/-- `pack_group(g, b, cap)`, `none` for `Null` (R112). -/
def packGroup (g : List Byte) (b : Width) (cap : Nat) : Option (List Byte) :=
  match packedSize g b with
  | none => none
  | some n => if cap < n then none else some (payload g b)

/-- The operation of the PACK commands: the group goes to `DB`, then the payload to the window, or `Fail` (R22, R117). -/
def packOperation (b : Width) (s : State) : Result :=
  let g := s.sourceBytes groupSize
  let t := { s with db := ByteFile.overwrite s.db g }
  match packGroup g b s.capacity with
  | some out => .next (t.produce out)
  | none =>
    match packedSize g b with
    | none => .next (t.spoilWindow.raiseFail .inapplicable)
    | some _ => .next (t.spoilWindow.raiseFail .capacity)

/-- PACK1 (R113, R117). -/
def execPack1 (s : State) : Result := command (commandWord .pack1) (checked .pack1 (packOperation .w1)) s

/-- PACK2 (R114, R117). -/
def execPack2 (s : State) : Result := command (commandWord .pack2) (checked .pack2 (packOperation .w2)) s

/-- PACK4 (R115, R117). -/
def execPack4 (s : State) : Result := command (commandWord .pack4) (checked .pack4 (packOperation .w4)) s

/-- PACK8 (R116, R117). -/
def execPack8 (s : State) : Result := command (commandWord .pack8) (checked .pack8 (packOperation .w8)) s

end Sys2Proof.Machine
end

