-- ==== Sys2Proof/Machine/GroupSequence.lean ====
section
/-! DEFINITION. Sub-unit GS, the group-sequence encoder, and its command ENCG (43_group_sequence_encoder.md). -/

namespace Sys2Proof.Machine

/-- One try of a width: it replaces the best so far "only if the resulting size is strictly smaller" (R136). -/
def tryWidth (g : List Byte) (best : Width × Nat) (b : Width) : Width × Nat :=
  match packedSize g b with
  | none => best
  | some n => if n < best.2 then (b, n) else best

/-- `select_width(g)`: the baseline 8, then 1, 2, 4 in that order (R136). -/
def selectWidth (g : List Byte) : Width := ([Width.w1, .w2, .w4].foldl (tryWidth g) (.w8, 16)).1

/-- Group `k` of a buffer: `buf[16k .. 16k+16)` (R135). -/
def groupAt (buf : List Byte) (k : Nat) : List Byte := (buf.drop (groupSize * k)).take groupSize

/-- The groups of a buffer in order (R135). -/
def groupsOf (buf : List Byte) : List (List Byte) := (List.range (buf.length / groupSize)).map (groupAt buf)

/-- `hsize = ceil(groups / 4)` (R81). -/
def headerSize (groups : Nat) : Nat := (groups + 3) / 4

/-- The code of group `k` goes to slot `k mod 4` of header byte `k div 4`, low-order slot first (R81, R140). -/
def putCode (header : List Byte) (k code : Nat) : List Byte :=
  header.modify (k / 4) fun h => h ||| BitVec.ofNat 8 (code * 4 ^ (k % 4))

/-- The loop of `encode_groups` over the groups from number `k` on, with room for `room` payload bytes in all (R139,
R140). -/
def encodeLoop (room : Nat) : List (List Byte) → Nat → List Byte → List Byte → Option (List Byte)
  | [], _, header, out => some (header ++ out)
  | grp :: rest, k, header, out =>
    if room - out.length < decodeLimit then none
    else
      let b := selectWidth grp
      match packGroup grp b (room - out.length) with
      | none => none
      | some p => encodeLoop room rest (k + 1) (putCode header k (widthCode b)) (out ++ p)

/-- `encode_groups(buf, cap)`, `none` for `Null` (R140). -/
def encodeGroups (buf : List Byte) (cap : Nat) : Option (List Byte) :=
  let hsize := headerSize (buf.length / groupSize)
  if cap < hsize then none else encodeLoop (cap - hsize) (groupsOf buf) 0 (List.replicate hsize 0) []

/-- The code of group `k` read from a header (R81, R144). -/
def headerCode (p : List Byte) (k : Nat) : Nat := (p.getD (k / 4) 0).toNat / 4 ^ (k % 4) % 4

/-- The loop of `decode_groups` over group numbers, from byte `pos` (R144). -/
def decodeLoop (p : List Byte) : List Nat → Nat → List Byte → List Byte × Nat
  | [], pos, buf => (buf, pos)
  | k :: rest, pos, buf =>
    let r := unpackGroup (p.drop pos) (widthOfCode (headerCode p k))
    decodeLoop p rest (pos + r.2) (buf ++ r.1)

/-- `decode_groups(p, groups)`; reference, not hardware (R144). -/
def decodeGroups (p : List Byte) (groups : Nat) : List Byte × Nat :=
  decodeLoop p (List.range groups) (headerSize groups) []

/-- The operation of ENCG (R22, R142). -/
def encgOperation (s : State) : Result :=
  let buf := s.sourceBytes s.glen.toNat
  match encodeGroups buf s.capacity with
  | some out => .next ({ s with db := ByteFile.overwrite s.db buf }.produce out)
  | none => .next ({ s with db := unspecifiedFile }.spoilWindow.raiseFail .capacity)

/-- ENCG (R142). -/
def execEncg (s : State) : Result := command (commandWord .encg) (checked .encg encgOperation) s

end Sys2Proof.Machine
end

