-- ==== Sys2Proof/Machine/Zigzag.lean ====
section
/-! DEFINITION. Sub-unit ZZ, the zigzag delta transform, and its commands ZZ8 and DZ8 (40_zigzag_delta.md). -/

namespace Sys2Proof.Machine

/-- `zigzag8(d) = asr8(d, 7) xor shl8(d, 1)` (R100). -/
def zigzag8 (d : Byte) : Byte := d.sshiftRight 7 ^^^ d <<< 1

/-- `delta8(cur, pred) = zigzag8((cur - pred) mod 256)` (R101). -/
def delta8 (cur pred : Byte) : Byte := zigzag8 (cur - pred)

/-- `unzigzag8(v) = (v div 2) xor ((0 - (v and 1)) mod 256)`; reference, not hardware (R104). -/
def unzigzag8 (v : Byte) : Byte := v >>> 1 ^^^ (0 - (v &&& 1))

/-- ZZ8: `R.RESULT <- zext_32(zigzag8(a))` (R102). -/
def execZz8 (a : Byte) (s : State) : Result :=
  command (commandWord (.zz8 a)) (fun t => .next (t.setResult ((zigzag8 a).setWidth 32))) s

/-- DZ8: `R.RESULT <- zext_32(delta8(a, b))` (R103). -/
def execDz8 (a b : Byte) (s : State) : Result :=
  command (commandWord (.dz8 a b)) (fun t => .next (t.setResult ((delta8 a b).setWidth 32))) s

end Sys2Proof.Machine
end

