-- ==== Sys2Proof/Machine/VertexBlock.lean ====
section
/-! DEFINITION. Sub-unit VB, the vertex block delta compressor, and its commands SEED and ENCB
(44_vertex_block_compressor.md). -/

namespace Sys2Proof.Machine

/-- The deltas of a run of raw bytes against a running predictor: "the raw byte, not the delta" (R151). -/
def deltasFrom : Byte → List Byte → List Byte
  | _, [] => []
  | p, c :: rest => delta8 c p :: deltasFrom c rest

/-- The raw bytes of channel `k` (R150). -/
def channelOf (recs : List (List Byte)) (k : Nat) : List Byte := recs.map fun r => r.getD k 0

/-- `16 * ceil(n/16)` (R152). -/
def paddedLength (n : Nat) : Nat := groupSize * ceilDiv n groupSize

/-- `channel_deltas(recs, k, p0)`: the deltas, zero-padded (R151). -/
def channelDeltas (recs : List (List Byte)) (k : Nat) (p0 : Byte) : List Byte :=
  deltasFrom p0 (channelOf recs k) ++ List.replicate (paddedLength recs.length - recs.length) 0

/-- The loop of `encode_block` over channel numbers (R153). -/
def channelLoop (recs : List (List Byte)) (lv : List Byte) (cap : Nat) : List Nat → List Byte → Option (List Byte)
  | [], out => some out
  | k :: rest, out =>
    match encodeGroups (channelDeltas recs k (lv.getD k 0)) (cap - out.length) with
    | none => none
    | some r => channelLoop recs lv cap rest (out ++ r)

/-- The predictor after a block: the last record in entries `0 .. vs-1` (R153, R155). -/
def newPredictor (recs : List (List Byte)) (vs : Nat) (lv : List Byte) : List Byte :=
  (List.range vs).map (fun k => (recs.getLastD []).getD k 0) ++ lv.drop vs

/-- `encode_block(recs, vs, lv, cap)`, `none` for `Null` (R153, R154). -/
def encodeBlock (recs : List (List Byte)) (vs : Nat) (lv : List Byte) (cap : Nat) :
    Option (List Byte × List Byte) :=
  match channelLoop recs lv cap (List.range vs) [] with
  | none => none
  | some out => some (out, newPredictor recs vs lv)

/-- The raw bytes of a channel from its deltas: `q = (q + as_signed8(unzigzag8(d))) mod 256` (R160). -/
def undelta : Byte → List Byte → List Byte
  | _, [] => []
  | q, d :: rest => (q + unzigzag8 d) :: undelta (q + unzigzag8 d) rest

/-- The loop of `decode_block` over channel numbers: the channels' raw bytes and the position after them (R160). -/
def decodeChannels (p : List Byte) (n : Nat) (lv : List Byte) : List Nat → Nat → List (List Byte) → List (List Byte) × Nat
  | [], pos, chans => (chans, pos)
  | k :: rest, pos, chans =>
    let r := decodeGroups (p.drop pos) (ceilDiv n groupSize)
    decodeChannels p n lv rest (pos + r.2) (chans ++ [undelta (lv.getD k 0) (r.1.take n)])

/-- `decode_block(p, vs, n, lv)`; reference, not hardware (R160). -/
def decodeBlock (p : List Byte) (vs n : Nat) (lv : List Byte) : List (List Byte) × Nat :=
  let r := decodeChannels p n lv (List.range vs) 0 []
  ((List.range n).map fun i => (List.range vs).map fun k => (r.1.getD k []).getD i 0, r.2)

/-- The operation of SEED (R157). -/
def seedOperation (s : State) : Result :=
  .next { s with lv := ByteFile.overwrite s.lv (s.sourceBytes s.vsize.toNat), lvvalid := true, result := 0 }

/-- SEED (R157). -/
def execSeed (s : State) : Result := command (commandWord .seed) (checked .seed seedOperation) s

/-- The operation of ENCB (R22, R158). The predictor bytes are those `LV` keeps (log 16). -/
def encbOperation (s : State) : Result :=
  let vs := s.vsize.toNat
  let recs := s.records
  let lv := ByteFile.bytes s.lv 256
  match encodeBlock recs vs lv s.capacity with
  | some (out, lv') =>
    .next
      ({ s with
          lv := ByteFile.overwrite s.lv (lv'.take vs)
          db := ByteFile.overwrite s.db (channelDeltas recs (vs - 1) (lv.getD (vs - 1) 0)) }.produce out)
  | none => .next ({ s with db := unspecifiedFile }.spoilWindow.raiseFail .capacity)

/-- ENCB (R158). -/
def execEncb (s : State) : Result := command (commandWord .encb) (checked .encb encbOperation) s

end Sys2Proof.Machine
end

