-- ==== Sys2Proof/Machine/Stream.lean ====
section
/-! DEFINITION. The stream encoder as a pure function and as a host script (46_stream_framing_host.md R175 to R187), and the
pseudo-commands (30_encoding.md R75). -/

namespace Sys2Proof.Machine

/-- `block_vertices(vs)` (R177). -/
def blockVertices (vs : Nat) : Nat := min blockMax (blockBytes / vs / groupSize * groupSize)

/-- The number of blocks, `ceil(count / bv)` (R178). -/
def blockCount (vs count : Nat) : Nat := ceilDiv count (blockVertices vs)

/-- The records of block `j`: `j*bv .. min((j+1)*bv, count) - 1` (R178). -/
def blockLength (vs count j : Nat) : Nat := min ((j + 1) * blockVertices vs) count - j * blockVertices vs

/-- The blocks of a record array in order (R178). -/
def blocksOf (recs : List (List Byte)) (vs : Nat) : List (List (List Byte)) :=
  (List.range (blockCount vs recs.length)).map fun j =>
    (recs.drop (j * blockVertices vs)).take (blockLength vs recs.length j)

/-- `tail_size = max(vertex_size, 32)` (R179). -/
def tailSize (vs : Nat) : Nat := max vs tailMin

/-- The tail: zeros up to 32 bytes, then the first record (R89, R179). -/
def tailBytes (vs : Nat) (first : List Byte) : List Byte := List.replicate (tailSize vs - vs) 0 ++ first

/-- Step 3 of `encode_stream`, threading the predictor (R178, R181). -/
def blockLoop (vs cap : Nat) : List (List (List Byte)) → List Byte → List Byte → Option (List Byte)
  | [], _, out => some out
  | blk :: rest, lv, out =>
    match encodeBlock blk vs lv (cap - out.length) with
    | none => none
    | some (b, lv') => blockLoop vs cap rest lv' (out ++ b)

/-- `encode_stream(recs, vs, cap)`, `none` for `Null` (R181). -/
def encodeStream (recs : List (List Byte)) (vs cap : Nat) : Option (List Byte) :=
  let first := recs.headD []
  if cap < 1 + vs then none
  else
    match blockLoop vs cap (blocksOf recs vs) first [formatByte] with
    | none => none
    | some out => if cap - out.length < tailSize vs then none else some (out ++ tailBytes vs first)

/-- The number as a register word. -/
def wordNat (n : Nat) : Word := BitVec.ofNat 32 n

/-- A command line of a script: "the one write to `CMD`" (R74). -/
def cmd (i : Instr) : HostAction := .wr offCmd (commandWord i)

/-- The actions of one block of the stream procedure (R186). -/
def blockActions (c : StreamCall) (j : Nat) : List HostAction :=
  [ .wr offSrc (wordNat (c.src + j * blockVertices c.vs * c.vs)),
    .wr offVcount (wordNat (blockLength c.vs c.count j)),
    cmd .encb, .wait, .checkBlock ]

/-- The actions of the stream procedure (R186); `finishStream` ends them. -/
def streamActions (c : StreamCall) : List HostAction :=
  [ .tag formatByte,
    .wr offVsize (wordNat c.vs), .wr offSrc (wordNat c.src), .wr offDst (wordNat (c.out + 1)),
    .wr offDend (wordNat (c.out + c.cap)),
    cmd .seed, .wait, .checkSeed ] ++
    (List.range (blockCount c.vs c.count)).flatMap (blockActions c) ++ [.finishStream]

/-- What is left of a script when the stream procedure in progress ends early: the actions after its `finishStream`.
DESIGN CHOICE (log 8): with no stream procedure in progress the script has no `finishStream`, and nothing is left of it; the
spec has no such case. -/
def abandonCall (script : List HostAction) : List HostAction := (script.dropWhile (· != .finishStream)).drop 1

/-- The stream procedure returns `n` and its remaining actions are dropped (R186). -/
def State.returnFromCall (s : State) (n : Nat) : State :=
  { s with callResult := .returned n, script := abandonCall s.script }

/-- `PACK <b>` (R75). -/
def pseudoPack (b : Width) : List HostAction :=
  match b with
  | .w1 => [cmd .pack1]
  | .w2 => [cmd .pack2]
  | .w4 => [cmd .pack4]
  | .w8 => [cmd .pack8]

/-- `SETUP vs, src, dst, dend` (R75). -/
def pseudoSetup (vs src dst dend : Word) : List HostAction :=
  [.wr offVsize vs, .wr offSrc src, .wr offDst dst, .wr offDend dend]

/-- `BLOCK src, n` (R75). -/
def pseudoBlock (src n : Word) : List HostAction := [.wr offSrc src, .wr offVcount n, cmd .encb, .wait]

/-- `CHECKOK` (R75). -/
def pseudoCheckOk : List HostAction := [.rd offStatus]

/-- What CHECKOK expects of the word read: `FAIL = 0`, `ERR = 0`, `DONE = 1` (R75). -/
def checkOkExpects (status : Word) : Bool := !status[2] && !status[3] && status[1]

end Sys2Proof.Machine
end

