-- ==== Sys2Proof/Machine/Wire.lean ====
section
/-! DEFINITION. The rows of the wire format: the four width codes, which the reader of a stream runs (30_encoding.md R80,
R84, R85; 42 R130; 43 R144; log 7), and the format byte, which the host writes (R87, 46 R176, R186; log 8). -/

namespace Sys2Proof.Machine

/-- The reader takes a group of width `b`: the bytes at its position give the 16 values and the length of the payload;
the values are appended and the position moves past the payload (R85, R130, R144). -/
def takeGroup (b : Width) (s : State) : Result :=
  let r := unpackGroup (s.mem.readBytes s.reader.pos decodeLimit) b
  hostAccess s s.reader.pos r.2 false
    (.next { s with reader := { pos := s.reader.pos + r.2, values := s.reader.values ++ r.1 } })

/-- WIDTH1: 16 zeros, no payload byte (R80, R84). -/
def execWidth1 (s : State) : Result := takeGroup .w1 s

/-- WIDTH2: 4 fixed bytes and the escape bytes (R80, R84). -/
def execWidth2 (s : State) : Result := takeGroup .w2 s

/-- WIDTH4: 8 fixed bytes and the escape bytes (R80, R84). -/
def execWidth4 (s : State) : Result := takeGroup .w4 s

/-- WIDTH8: 16 bytes verbatim (R80, R84). -/
def execWidth8 (s : State) : Result := takeGroup .w8 s

/-- FORMAT_V1, step 1 of the stream procedure: "fail if capacity `< 1 + vertex_size`", else the byte `0xA1` at `O` (R176,
R186). DESIGN CHOICE (log 8): with no stream procedure in progress it acts by the inputs that `call` holds, and a capacity
too small for them drops the whole remaining script (abandonCall). -/
def execFormatV1 (s : State) : Result :=
  if s.call.cap < 1 + s.call.vs then .next (s.returnFromCall 0)
  else hostAccess s s.call.out 1 true (.next { s with mem := s.mem.write s.call.out [formatByte] })

/-- The reader takes the header of a channel of `groups` groups: its slots, lowest first, are the width codes to run, and
the position moves past the header; "A reader must not take them for groups" of the slots without a group (R81, R90,
R144). -/
def takeHeader (groups : Nat) (s : State) : Result :=
  let p := s.mem.readBytes s.reader.pos (headerSize groups)
  let slots := (List.range groups).map fun k => HostAction.slot (BitVec.ofNat 2 (headerCode p k))
  hostAccess s s.reader.pos (headerSize groups) false
    (.next { s with
      reader := { s.reader with pos := s.reader.pos + headerSize groups }
      script := slots ++ s.script })

end Sys2Proof.Machine
end

