-- ==== Sys2Proof/Machine/Dispatch.lean ====
section
/-! DEFINITION. The meaning of every instruction, one arm each. -/

namespace Sys2Proof.Machine

def exec (i : Instr) (s : State) : Host.Outcome State Fault Refusal :=
  match i with
  | .nop => Sys2Proof.Machine.execNop s
  | .clr => Sys2Proof.Machine.execClr s
  | .seed => Sys2Proof.Machine.execSeed s
  | .zz8 a => Sys2Proof.Machine.execZz8 a s
  | .dz8 a b => Sys2Proof.Machine.execDz8 a b s
  | .pack1 => Sys2Proof.Machine.execPack1 s
  | .pack2 => Sys2Proof.Machine.execPack2 s
  | .pack4 => Sys2Proof.Machine.execPack4 s
  | .pack8 => Sys2Proof.Machine.execPack8 s
  | .encg => Sys2Proof.Machine.execEncg s
  | .encb => Sys2Proof.Machine.execEncb s
  | .width1 => Sys2Proof.Machine.execWidth1 s
  | .width2 => Sys2Proof.Machine.execWidth2 s
  | .width4 => Sys2Proof.Machine.execWidth4 s
  | .width8 => Sys2Proof.Machine.execWidth8 s
  | .formatV1 => Sys2Proof.Machine.execFormatV1 s

end Sys2Proof.Machine
end

