-- ==== Sys2Proof/Machine/HostPort.lean ====
section
/-! DEFINITION. What the outside world does to the machine: the actions of the host's script (30_encoding.md R74), of its
stream procedure (46 R186), of the reader (43 R144) and of the reset pin (70 R215, R216), and the block finishing a
command (45 R165). -/

namespace Sys2Proof.Machine

/-- A write of `c` to `CMD`, accepted and completed in one transition (R165, R170). -/
def writeCommand (c : Word) (s : State) : Result :=
  match decodeCommand c with
  | .ok i => exec i s
  | .error _ => illegalCommand c s

/-- `RegWrite(off, v)` at any offset (R169). -/
def writeRegister (off : WordOff) (v : Word) (s : State) : Result :=
  if off = offCmd then writeCommand v s else .next (regWrite off v s)

/-- A write of `c` to `CMD` after which `BUSY = 1` is seen (R165; log 6). DESIGN CHOICE (log 6): what the window holds
before completion is unspecified (R54), and the model keeps the bytes of acceptance there; nothing reads them, since an
access of the host or the reader to the window is refused (R60) and a reset makes it free (R216). -/
def startCommand (c : Word) (s : State) : State := if s.ignoresCommand c then s else s.accept c

/-- The command in flight runs and completes (R165; log 6): its inputs are as they were at acceptance, since the block
ignored every register write and the hand-off rule kept the memory (R36, R60). -/
def completeInFlight (s : State) : Result :=
  match s.inFlight with
  | none => .next s
  | some c => writeCommand c { s with inFlight := none }

/-- `WAIT`: the host "reads STATUS until DONE = 1" (R74). A command in flight completes first; with `DONE = 0` and nothing
in flight the host goes on waiting (log 18). -/
def hostWait (s : State) : Result :=
  match s.inFlight with
  | some _ => completeInFlight { s with script := .wait :: s.script }
  | none => if s.done then .next (regRead offStatus s) else .next { s with script := .wait :: s.script }

/-- The window of the command in flight, if it has one, as a reset finds it (R216; log 19). -/
def State.windowInFlight (s : State) : Bool :=
  match s.commandInFlight with
  | none => false
  | some i => usesWindow i

/-- A rising edge with `rst = 1`: the state after reset; of a command in flight the window takes free values, "no byte
outside the window is changed" (R215, R216). -/
def resetBlock (s : State) : Result :=
  if s.windowInFlight then
    if covers s.cfg s.dst.toNat s.dend.toNat then .next { s.spoilWindow.blockReset with rst := true }
    else .refused .unpopulatedMemory
  else .next { s.blockReset with rst := true }

/-- The start of a stream call: the preconditions are a programming error when violated (R175, R191, R219), no records is
refused (R185), and else the procedure's actions come next (R186). -/
def beginStream (c : StreamCall) (s : State) : Result :=
  if !legalRecordSize c.vs then .next { s with call := c, callResult := .programmingError }
  else if c.count = 0 then .refused .emptyRecordArray
  else .next { s with call := c, callResult := .none, script := streamActions c ++ s.script }

/-- "expect ERR = 0": `STATUS` is read, and `ERR` ends the call as a programming error (R186, R191). -/
def expectNoErr (s : State) : Result :=
  let t := regRead offStatus s
  if s.err then .next { t with callResult := .programmingError, script := abandonCall t.script } else .next t

/-- `RD STATUS` after an ENCB: `FAIL` ends the call with 0 after a CLR, `ERR` is a programming error (R186). -/
def checkStatus (s : State) : Result :=
  let t := regRead offStatus s
  if s.fail then .next { t with script := [cmd .clr, .wait, .giveBack 0] ++ t.script } else expectNoErr s

/-- The end of the stream procedure: the cursor is read, the tail tested and written, and the length returned (R179,
R186). -/
def finishCall (s : State) : Result :=
  let t := regRead offDst s
  let p := t.rdata.toNat
  let c := s.call
  if c.out + c.cap - p < tailSize c.vs then .next { t with callResult := .returned 0 }
  else
    hostAccess t c.src c.vs false
      (hostAccess t p (tailSize c.vs) true
        (.next { t with
          mem := t.mem.write p (tailBytes c.vs (t.mem.readBytes c.src c.vs))
          callResult := .returned (p + tailSize c.vs - c.out) }))

/-- The word offset of a host bus address, when it is an aligned word of the register space (R51, R56, R64; log 13). -/
def busOffset (cfg : Config) (addr : Nat) : Option WordOff :=
  if cfg.regBase ≤ addr ∧ addr < cfg.regBase + 1024 ∧ (addr - cfg.regBase) % 4 = 0 then
    some (BitVec.ofNat 8 ((addr - cfg.regBase) / 4))
  else none

/-- What an action does. -/
def perform (a : HostAction) (s : State) : Result :=
  match a with
  | .wr off v => writeRegister off v s
  | .rd off => .next (regRead off s)
  | .memw addr bytes => hostAccess s addr bytes.length true (.next { s with mem := s.mem.write addr bytes })
  | .memr addr n => hostAccess s addr n false (.next { s with mdata := s.mem.readBytes addr n })
  | .wait => hostWait s
  | .start c => .next (startCommand c s)
  | .blockCompletes => completeInFlight s
  | .rstHigh => resetBlock s
  | .rstLow => .next { s with rst := false }
  | .tag b =>
    match decodeTag b with
    | .ok i => exec i s
    | .error _ => .refused .reservedFormatByte
  | .slot c => exec (decodeSlot c) s
  | .readAt addr => .next { s with reader := { pos := addr, values := [] } }
  | .readChannel groups => takeHeader groups s
  | .encodeStream c => beginStream c s
  | .checkSeed => expectNoErr s
  | .checkBlock => checkStatus s
  | .finishStream => finishCall s
  | .giveBack n => .next (s.returnFromCall n)
  | .busWr addr v =>
    match busOffset s.cfg addr with
    | some off => writeRegister off v s
    | none => .refused .outsideRegisterSpace
  | .busRd addr =>
    match busOffset s.cfg addr with
    | some off => .next (regRead off s)
    | none => .refused .outsideRegisterSpace

/-- One transition of the machine: the next action of the script; with no action left, a command in flight completes, and
an idle block stays as it is (R13, R40, R230; log 5). -/
def transition (s : State) : Result :=
  match s.script with
  | a :: rest => perform a { s with script := rest }
  | [] => completeInFlight s

/-- The action that brings a table word of `nbits` bits to its agent: a command word to `CMD`, a format byte to the stream,
a width code to the reader (log 14). -/
def actionOfTableWord (nbits w : Nat) : HostAction :=
  if 16 < nbits then .wr offCmd (BitVec.ofNat 32 w)
  else
    let b : Byte := BitVec.ofNat 8 w
    if isTag b then .tag b else .slot (slotBits b)

end Sys2Proof.Machine
end

