-- ==== Sys2Proof/Machine/Step.lean ====
section
/-! DEFINITION. The step of the machine and where an instruction is placed to be run next. -/

namespace Sys2Proof.Machine

/-- One step. -/
def step (s : State) : Host.Outcome State Fault Refusal := transition s

/-- `s` with the table word placed at the head of the host's script, so that the next step runs it (log 5). -/
def State.withFetchWord (s : State) (nbits w : Nat) : State :=
  { s with script := actionOfTableWord nbits w :: s.script }

end Sys2Proof.Machine
end

