-- ==== Sys2Proof/Safety.lean ====
section
/-! DEFINITION. The terms claims are stated in: a block that accepts a command, the window, the state invariant, a run. -/

namespace Sys2Proof.Machine

/-- The block accepts any command: not in reset, idle, no failure pending (R165, R215). -/
abbrev State.ready (s : State) : Prop := s.rst = false ∧ s.inFlight = none ∧ s.fail = false ∧ s.err = false

/-- The address is in the window `[DST, DEND)` (R17, R31). -/
abbrev State.inWindow (s : State) (a : Nat) : Prop := s.dst.toNat ≤ a ∧ a < s.dend.toNat

/-- The invariant of the machine: what the spec says of its state at every moment. -/
structure State.Inv (s : State) : Prop where
  /-- The parameters are legal (R8). -/
  cfgLegal : s.cfg.wf
  /-- Memory keeps its canonical form. -/
  memCanonical : Memory.wf s.mem
  /-- Memory lists only addresses `0 .. 2^AW - 1` (R50). -/
  memInSpace : ∀ c ∈ s.mem, c.1 < 2 ^ s.cfg.aw
  /-- Bits 31:`AW` of the address registers read 0 (R29, R30, R31). -/
  addrBitsZero : s.src.toNat < 2 ^ s.cfg.aw ∧ s.dst.toNat < 2 ^ s.cfg.aw ∧ s.dend.toNat < 2 ^ s.cfg.aw
  /-- "At most one of `FAIL`, `ERR` is 1" (R25). -/
  oneFailure : ¬(s.fail = true ∧ s.err = true)
  /-- `CAUSE` is 0 when both are 0 (R25), and the code of a Fail or an Err otherwise (R195). -/
  causeNone : s.fail = false → s.err = false → s.cause = .none
  causeFail : s.fail = true → s.cause = .capacity ∨ s.cause = .inapplicable
  causeErr : s.err = true → s.cause = .opcode ∨ s.cause = .vsize ∨ s.cause = .count ∨ s.cause = .lvinvalid ∨ s.cause = .range
  /-- A valid predictor has a legal size and every entry below it written (R21, R33). -/
  seeded : s.lvvalid = true → s.vsizeLegal = true ∧ ∀ k, k < s.vsize.toNat → (ByteFile.entry s.lv k).specified = true
  /-- `DONE` is 0 while `BUSY` is 1 (R25). -/
  busyNotDone : s.inFlight.isSome = true → s.done = false
  /-- Only CLR is in flight while a failure is pending (R165). -/
  inFlightAccepted : ∀ c, s.inFlight = some c → (s.fail = false ∧ s.err = false) ∨ c = 0x00000001
  /-- While `rst = 1` the block is in its reset state (R215). -/
  inReset : s.rst = true → s.blockReset = s

/-- A command with a window finds its operands in order: `n` source bytes that do not wrap, a window that is not inverted,
is named by `AW`-bit registers and does not meet the source (R31, R65), all of it populated (R66). -/
abbrev State.placed (s : State) (n : Nat) : Prop :=
  s.cfg.aw ≤ 32 ∧ s.dend.toNat < 2 ^ s.cfg.aw ∧ s.src.toNat + n ≤ 2 ^ s.cfg.aw ∧ s.dst.toNat ≤ s.dend.toNat ∧
    ¬(s.dst.toNat < s.dend.toNat ∧ s.src.toNat < s.dend.toNat ∧ s.dst.toNat < s.src.toNat + n) ∧
    covers s.cfg s.src.toNat (s.src.toNat + n) = true ∧ covers s.cfg s.dst.toNat s.dend.toNat = true

/-- Entries `0 .. len(v)-1` of a file are the bytes `v`, the rest is as before (R22, R155, R157). -/
abbrev fileHolds (after before : ByteFile) (v : List Byte) : Prop :=
  ∀ k, ByteFile.entry after k =
    if k < v.length then { val := v.getD k 0, specified := true } else ByteFile.entry before k

/-- Every byte outside the window of `s` reads in `t` as in `s` (R42). -/
abbrev keepsOutsideWindow (s t : State) : Prop := ∀ a, ¬s.inWindow a → Memory.read t.mem a = Memory.read s.mem a

/-- The bytes `out` stand from the cursor of `s` up (R59). -/
abbrev outputAtCursor (s t : State) (out : List Byte) : Prop :=
  ∀ j, j < out.length → Memory.read t.mem (s.dst.toNat + j) = out.getD j 0

/-- The closed form of the zigzag transform: `2*s` for `s ≥ 0` and `-2*s - 1` for `s < 0`, `s = as_signed8(d)` (R105). -/
def zigzagClosedForm (d : Nat) : Nat := if d < 128 then 2 * d else 511 - 2 * d

/-- The payload size of a group at the width selected for it (R143). -/
def selectedSize (g : List Byte) : Nat := (packedSize g (selectWidth g)).getD 0

/-- The payload bytes of the groups before group `k` (R143). -/
def sizeBefore (buf : List Byte) (k : Nat) : Nat := (((groupsOf buf).take k).map selectedSize).sum

/-- `need(buf)`, the least capacity of a channel (R143). -/
def channelNeed (buf : List Byte) : Nat :=
  ((List.range (buf.length / groupSize)).map fun k =>
    headerSize (buf.length / groupSize) + sizeBefore buf k + decodeLimit).foldl max 0

/-- The register write that the next step carries out, if it is one: its offset and its word (R64, R74, R169). -/
def State.registerWritten (s : State) : Option (WordOff × Word) :=
  match s.script.head? with
  | some (.wr off v) => some (off, v)
  | some (.busWr addr v) => (busOffset s.cfg addr).map fun off => (off, v)
  | _ => none

/-- The command word that the next step runs, unless it is ignored: one written to `CMD`, or the one in flight when the step
completes it (R165). -/
def State.commandRun (s : State) : Option Word :=
  match s.script.head? with
  | none | some .wait | some .blockCompletes => s.inFlight
  | _ => s.registerWritten.bind fun p => if p.1 = offCmd then some p.2 else none

/-- `k` steps of the machine, stopping at the first fault or refusal. -/
abbrev run (k : Nat) (s : State) : Result := Host.Core.run core k s

end Sys2Proof.Machine
end

