-- ==== Sys2Proof/Certificates/Slice0/Obligations.lean ====
section
/-! DEFINITION. The statements about the model. Each says which rule of spec/ it formalises. -/

open Sys2Proof Sys2Proof.Machine

/-- Every instruction's encoding decodes to it, with every operand at every value (30_encoding.md R70 to R72, R80, R87). -/
def Obligations.DecodeOfEncodeIsInstruction : Prop :=
  ∀ i : Instr, decodeTableWord (encode i).1 (encode i).2 = some i

/-- A word that decodes to a command is that command's one word (R71). -/
def Obligations.EncodeOfDecodedWordIsWord : Prop :=
  ∀ (c : Word) (i : Instr), decodeCommand c = .ok i → isCommand i = true ∧ commandWord i = c

/-- "The rows are disjoint: no word matches two rows" (R71). -/
def Obligations.OpcodeRowsDisjoint : Prop :=
  commandRows.Pairwise fun r q => ∀ c : Word, ¬(r.selects c = true ∧ q.selects c = true)

/-- Illegal words: exactly those with a reserved opcode, a must-be-zero bit or an unused operand that is not 0; and one that
is accepted raises `Err(OPCODE)` and does nothing else (R73). -/
def Obligations.IllegalWordsRaiseOpcode : Prop :=
  (∀ c : Word, (∃ e, decodeCommand c = .error e) ↔ ¬(fieldsOf c).wf) ∧
    ∀ (s : State) (c : Word) (e : Reject), s.ready → decodeCommand c = .error e →
      writeCommand c s = .next { s with err := true, cause := .opcode, result := 0, done := true }

/-- Words written out from R71, R80 and R87 decode to what they stand for; a word of each kind of illegal word does not. -/
def Obligations.SpecWordsDecode : Prop :=
  decodeCommand 0x00000000 = .ok .nop ∧ decodeCommand 0x00000001 = .ok .clr ∧ decodeCommand 0x00000002 = .ok .seed ∧
    decodeCommand 0x0000FD03 = .ok (.zz8 0xFD) ∧ decodeCommand 0x0002FF04 = .ok (.dz8 0xFF 0x02) ∧
    decodeCommand 0x00000025 = .ok .pack4 ∧ decodeCommand 0x00000006 = .ok .encg ∧
    decodeCommand 0x00000007 = .ok .encb ∧ decodeSlot 0b10 = .width4 ∧ decodeTag 0xA1 = .ok .formatV1 ∧
    decodeTag 0xA0 = .error .reservedFormatByte ∧ decodeCommand 0x00000008 = .error .reservedOpcode ∧
    decodeCommand 0x00000045 = .error .reservedBits

/-- A step runs the decoded instruction: a command word at the head of the script, a format byte, a width code, and a table
word placed for fetching. The head of the script is this model's place of fetch (model's choice, log 5). -/
def Obligations.StepRunsDecodedInstruction : Prop :=
  (∀ (s : State) (c : Word) (i : Instr) (rest : List HostAction), s.script = .wr offCmd c :: rest →
      decodeCommand c = .ok i → step s = exec i { s with script := rest }) ∧
    (∀ (s : State) (b : Byte) (i : Instr) (rest : List HostAction), s.script = .tag b :: rest → decodeTag b = .ok i →
      step s = exec i { s with script := rest }) ∧
    (∀ (s : State) (c : BitVec 2) (rest : List HostAction), s.script = .slot c :: rest →
      step s = exec (decodeSlot c) { s with script := rest }) ∧
    ∀ (s : State) (nbits w : Nat) (i : Instr), decodeTableWord nbits w = some i →
      step (s.withFetchWord nbits w) = exec i s

/-- A write to `CMD`: ignored while busy, ignored while a failure is pending unless it is CLR's exact word, and else it
completes, with `BUSY = 0` and `DONE = 1`, unless memory it touches is not populated (R165; the refusal R66). While `rst = 1`
a write to any register, `CMD` included, is ignored (R215). -/
def Obligations.CommandIsIgnoredOrCompletes : Prop :=
  ∀ (s : State) (c : Word),
    (s.inFlight.isSome = true → writeCommand c s = .next s) ∧
    (s.rst = true → ∀ (off : WordOff) (v : Word), writeRegister off v s = .next s) ∧
    ((s.fail = true ∨ s.err = true) → c ≠ 0x00000001 → writeCommand c s = .next s) ∧
    (s.rst = false → s.inFlight = none → ((s.fail = false ∧ s.err = false) ∨ c = 0x00000001) →
      (∃ t, writeCommand c s = .next t ∧ t.inFlight = none ∧ t.done = true) ∨
        writeCommand c s = .refused .unpopulatedMemory) ∧
    (s.ready → (∀ i, decodeCommand c ≠ .ok i) →
      ∃ t, writeCommand c s = .next t ∧ t.err = true ∧ t.cause = .opcode)

/-- Every accepted command whose source and window are populated answers a next state (R165, R66). -/
def Obligations.PopulatedCommandCompletes : Prop :=
  ∀ (s : State) (i : Instr), isCommand i = true → s.ready → footprintPopulated i s = true →
    ∃ t, exec i s = .next t ∧ t.inFlight = none ∧ t.done = true

/-- NOP: `RESULT` 0, `DONE`, nothing else; refused while a failure is pending (R167). -/
def Obligations.NopClearsResult : Prop :=
  (∀ s : State, s.ready → exec .nop s = .next { s with result := 0, done := true }) ∧
    (∀ s : State, s.fail = true ∨ s.err = true → exec .nop s = .next s) ∧ decodeCommand 0x00000000 = .ok .nop

/-- CLR: clears `FAIL`, `ERR`, `CAUSE` and `RESULT` and undoes nothing; the only word accepted while a failure is pending
(R168). -/
def Obligations.ClrClearsFailure : Prop :=
  (∀ s : State, s.rst = false → s.inFlight = none →
      exec .clr s = .next { s with fail := false, err := false, cause := .none, result := 0, done := true }) ∧
    (∀ (s : State) (c : Word), s.fail = true ∨ s.err = true → c ≠ 0x00000001 → writeCommand c s = .next s) ∧
    decodeCommand 0x00000001 = .ok .clr

/-- ZZ8: `RESULT` is the zigzag of its byte, in the closed form, and nothing else changes (R102, R105). -/
def Obligations.Zz8WritesZigzag : Prop :=
  ∀ (s : State) (a : Byte), s.ready →
    exec (.zz8 a) s = .next { s with result := BitVec.ofNat 32 (zigzagClosedForm a.toNat), done := true }

/-- DZ8: `RESULT` is the zigzag of the wrapping difference, in the closed form, and nothing else changes (R101, R103,
R105). -/
def Obligations.Dz8WritesZigzagOfDifference : Prop :=
  ∀ (s : State) (a b : Byte), s.ready →
    exec (.dz8 a b) s =
      .next { s with result := BitVec.ofNat 32 (zigzagClosedForm ((a.toNat + 256 - b.toNat) % 256)), done := true }

/-- `zigzag8` is a bijection on bytes with inverse `unzigzag8`, and a byte is its predictor plus its decoded delta
(R104). -/
def Obligations.ZigzagIsBijection : Prop :=
  (∀ v : Byte, (unzigzag8 v).toNat = Nat.xor (v.toNat / 2) (if v.toNat % 2 = 0 then 0 else 255)) ∧
    (∀ d : Byte, unzigzag8 (zigzag8 d) = d) ∧ (∀ v : Byte, zigzag8 (unzigzag8 v) = v) ∧
    ∀ cur pred : Byte, pred + unzigzag8 (delta8 cur pred) = cur

/-- SEED: the record at `SRC` goes to `LV[0 .. VSIZE-1]`, `LVVALID` is set, `RESULT` 0, nothing else changes; an illegal
`VSIZE` or a source that wraps is an `Err` (R157). -/
def Obligations.SeedLoadsPredictor : Prop :=
  (∀ s : State, s.ready → s.vsizeLegal = true → s.src.toNat + s.vsize.toNat ≤ 2 ^ s.cfg.aw →
      covers s.cfg s.src.toNat (s.src.toNat + s.vsize.toNat) = true →
      ∃ t, exec .seed s = .next t ∧ t = { s with lv := t.lv, lvvalid := true, result := 0, done := true } ∧
        fileHolds t.lv s.lv (Memory.readBytes s.mem s.src.toNat s.vsize.toNat)) ∧
    (∀ s : State, s.ready → s.vsizeLegal = false →
      exec .seed s = .next { s with err := true, cause := .vsize, result := 0, done := true }) ∧
    (∀ s : State, s.ready → s.vsizeLegal = true → 2 ^ s.cfg.aw < s.src.toNat + s.vsize.toNat →
      exec .seed s = .next { s with err := true, cause := .range, result := 0, done := true }) ∧
    decodeCommand 0x00000002 = .ok .seed

/-- PACK1: an all-zero group gives 0 bytes, whatever the capacity, with `DST` unchanged and `RESULT` 0; any other group is
`Fail(INAPPLICABLE)`; `DB` takes the group, and no byte outside the window changes (R113, R117, R42). -/
def Obligations.Pack1TakesZeroGroup : Prop :=
  ∀ s : State, s.ready → s.placed 16 →
    (((∀ j, j < 16 → Memory.read s.mem (s.src.toNat + j) = 0) →
      ∃ t, exec .pack1 s = .next t ∧
        t = { s with db := t.db, mem := t.mem, draws := t.draws, result := 0, done := true } ∧
        fileHolds t.db s.db (s.sourceBytes 16) ∧ keepsOutsideWindow s t) ∧
    ((∃ j, j < 16 ∧ Memory.read s.mem (s.src.toNat + j) ≠ 0) →
      ∃ t, exec .pack1 s = .next t ∧
        t = { s with
          db := t.db, mem := t.mem, draws := t.draws, result := 0, done := true, fail := true
          cause := .inapplicable } ∧
        fileHolds t.db s.db (s.sourceBytes 16) ∧ keepsOutsideWindow s t))

/-- PACK2, PACK4, PACK8 with room for the exact payload: it stands at the cursor, `RESULT` is its length, `DST` advances by
it, `DB` takes the group, and nothing else changes, no byte outside the window among it (R114 to R117, R42). -/
def Obligations.PackWritesPayload : Prop :=
  ∀ (s : State) (p : Instr × Width) (n : Nat),
    p ∈ [(Instr.pack2, Width.w2), (Instr.pack4, Width.w4), (Instr.pack8, Width.w8)] → s.ready → s.placed 16 →
    packedSize (s.sourceBytes 16) p.2 = some n → n ≤ s.dend.toNat - s.dst.toNat →
    ∃ t, exec p.1 s = .next t ∧
      t = { s with
        db := t.db, mem := t.mem, draws := t.draws, result := BitVec.ofNat 32 n, done := true
        dst := BitVec.ofNat 32 (s.dst.toNat + n) } ∧
      fileHolds t.db s.db (s.sourceBytes 16) ∧ (payload (s.sourceBytes 16) p.2).length = n ∧
      outputAtCursor s t (payload (s.sourceBytes 16) p.2) ∧ keepsOutsideWindow s t

/-- PACK2, PACK4, PACK8 without room for the exact payload: `Fail(CAPACITY)`; `DB` takes the group, `DST` stays, `RESULT` is
0, and no byte outside the window changes (R114 to R117, R193). -/
def Obligations.PackWithoutRoomFails : Prop :=
  ∀ (s : State) (p : Instr × Width) (n : Nat),
    p ∈ [(Instr.pack2, Width.w2), (Instr.pack4, Width.w4), (Instr.pack8, Width.w8)] → s.ready → s.placed 16 →
    packedSize (s.sourceBytes 16) p.2 = some n → s.dend.toNat - s.dst.toNat < n →
    ∃ t, exec p.1 s = .next t ∧
      t = { s with
        db := t.db, mem := t.mem, draws := t.draws, result := 0, done := true, fail := true, cause := .capacity } ∧
      fileHolds t.db s.db (s.sourceBytes 16) ∧ keepsOutsideWindow s t

/-- ENCG with the capacity its buffer needs: the channel's bytes stand at the cursor, `RESULT` is their number, `DST`
advances by it, `DB` takes the buffer, and nothing else changes (R142, R22, R42). -/
def Obligations.EncgEncodesBuffer : Prop :=
  ∀ s : State, s.ready → s.glenLegal = true → s.placed s.glen.toNat →
    channelNeed (s.sourceBytes s.glen.toNat) ≤ s.dend.toNat - s.dst.toNat →
    ∃ t out, encodeGroups (s.sourceBytes s.glen.toNat) (s.dend.toNat - s.dst.toNat) = some out ∧
      exec .encg s = .next t ∧
      t = { s with
        db := t.db, mem := t.mem, draws := t.draws, result := BitVec.ofNat 32 out.length, done := true
        dst := BitVec.ofNat 32 (s.dst.toNat + out.length) } ∧
      fileHolds t.db s.db (s.sourceBytes s.glen.toNat) ∧ outputAtCursor s t out ∧ keepsOutsideWindow s t

/-- ENCG with less than the capacity its buffer needs: `Fail(CAPACITY)`, `DB` unspecified, `DST` unchanged, `RESULT` 0, and
no byte outside the window changes (R142, R22, R42). -/
def Obligations.EncgWithoutRoomFails : Prop :=
  ∀ s : State, s.ready → s.glenLegal = true → s.placed s.glen.toNat →
    s.dend.toNat - s.dst.toNat < channelNeed (s.sourceBytes s.glen.toNat) →
    ∃ t, exec .encg s = .next t ∧
      t = { s with
        db := t.db, mem := t.mem, draws := t.draws, result := 0, done := true, fail := true, cause := .capacity } ∧
      (∀ k, k < 256 → (ByteFile.entry t.db k).specified = false) ∧ keepsOutsideWindow s t

/-- ENCB that fits: the block's bytes stand at the cursor, `LV[0 .. VSIZE-1]` becomes the last record, `DB` the deltas of
the last channel, `RESULT` and `DST` count the bytes, and nothing else changes (R158, R155, R22, R42). -/
def Obligations.EncbEncodesBlock : Prop :=
  ∀ (s : State) (out lv' : List Byte), s.ready → s.vsizeLegal = true → s.vcountLegal = true → s.lvvalid = true →
    s.placed (s.vcount.toNat * s.vsize.toNat) →
    encodeBlock s.records s.vsize.toNat (ByteFile.bytes s.lv 256) (s.dend.toNat - s.dst.toNat) = some (out, lv') →
    ∃ t, exec .encb s = .next t ∧
      t = { s with
        lv := t.lv, db := t.db, mem := t.mem, draws := t.draws, result := BitVec.ofNat 32 out.length, done := true
        dst := BitVec.ofNat 32 (s.dst.toNat + out.length) } ∧
      fileHolds t.lv s.lv
        (Memory.readBytes s.mem (s.src.toNat + (s.vcount.toNat - 1) * s.vsize.toNat) s.vsize.toNat) ∧
      fileHolds t.db s.db
        (channelDeltas s.records (s.vsize.toNat - 1) (ByteFile.entry s.lv (s.vsize.toNat - 1)).val) ∧
      outputAtCursor s t out ∧ keepsOutsideWindow s t

/-- ENCB that does not fit: `Fail(CAPACITY)`; `LV`, `LVVALID` and `DST` unchanged, `RESULT` 0, `DB` unspecified, and no byte
outside the window changes (R158, R154, R22, R42). -/
def Obligations.EncbWithoutRoomFails : Prop :=
  ∀ s : State, s.ready → s.vsizeLegal = true → s.vcountLegal = true → s.lvvalid = true →
    s.placed (s.vcount.toNat * s.vsize.toNat) →
    encodeBlock s.records s.vsize.toNat (ByteFile.bytes s.lv 256) (s.dend.toNat - s.dst.toNat) = none →
    ∃ t, exec .encb s = .next t ∧
      t = { s with
        db := t.db, mem := t.mem, draws := t.draws, result := 0, done := true, fail := true, cause := .capacity } ∧
      (∀ k, k < 256 → (ByteFile.entry t.db k).specified = false) ∧ keepsOutsideWindow s t

/-- `raise Err(cause)`: the flag, the cause, `RESULT` 0 and completion, everything else unchanged, memory included
(R194). -/
def Obligations.ErrLeavesEverythingElse : Prop :=
  ∀ (s : State) (i : Instr) (c : Cause), isCommand i = true → s.ready → firstError i s = some c →
    exec i s = .next { s with err := true, cause := c, result := 0, done := true }

/-- The checks of ENCB are made in the order VSIZE, COUNT, LVINVALID, RANGE and the first that fails is reported, before
any `Fail` (R199, R198, R65). -/
def Obligations.EncbChecksInOrder : Prop :=
  ∀ s : State, s.ready →
    let err := fun c => Host.Outcome.next { s with err := true, cause := c, result := 0, done := true }
    let vs := s.vsize.toNat
    let n := s.vcount.toNat
    (vs = 0 ∨ 256 < vs ∨ vs % 4 ≠ 0 → exec .encb s = err .vsize) ∧
    (0 < vs → vs ≤ 256 → vs % 4 = 0 →
      (n = 0 ∨ 256 < n → exec .encb s = err .count) ∧
      (0 < n → n ≤ 256 →
        (s.lvvalid = false → exec .encb s = err .lvinvalid) ∧
        (s.lvvalid = true →
          2 ^ s.cfg.aw < s.src.toNat + n * vs ∨ s.dend.toNat < s.dst.toNat ∨
            (s.dst.toNat < s.dend.toNat ∧ s.src.toNat < s.dend.toNat ∧ s.dst.toNat < s.src.toNat + n * vs) →
          exec .encb s = err .range)))

/-- The range check of PACK and ENCG: a source that wraps, `DST > DEND`, or a source that meets a window that is not empty
(R65); ENCG's `GLEN` is checked before it (R142, R199). -/
def Obligations.RangeCheckRaisesErr : Prop :=
  ∀ (s : State) (n : Nat), s.ready →
    let err := fun c => Host.Outcome.next { s with err := true, cause := c, result := 0, done := true }
    let outOfRange := 2 ^ s.cfg.aw < s.src.toNat + n ∨ s.dend.toNat < s.dst.toNat ∨
      (s.dst.toNat < s.dend.toNat ∧ s.src.toNat < s.dend.toNat ∧ s.dst.toNat < s.src.toNat + n)
    (n = 16 → outOfRange → ∀ i ∈ [Instr.pack1, .pack2, .pack4, .pack8], exec i s = err .range) ∧
    (n = s.glen.toNat →
      (n = 0 ∨ 256 < n ∨ n % 16 ≠ 0 → exec .encg s = err .count) ∧
      (0 < n → n ≤ 256 → n % 16 = 0 → outOfRange → exec .encg s = err .range))

/-- `LVVALID`: bit 4 of `STATUS`; 0 after reset, set by a successful SEED, cleared by every host write to `VSIZE` that is not
ignored, left unchanged by everything else; ENCB without it raises `Err(LVINVALID)` (R21). -/
def Obligations.LvvalidSetBySeedClearedByVsize : Prop :=
  State.reset.lvvalid = false ∧
    (∀ s t : State, perform .rstHigh s = .next t → t.lvvalid = false) ∧
    (∀ s : State, s.statusWord.toNat / 16 % 2 = s.lvvalid.toNat) ∧
    (∀ s t : State, exec .seed s = .next t →
      t.lvvalid = (s.lvvalid || (!s.ignoresCommand 0x00000002 && !t.err))) ∧
    (∀ (s t : State) (i : Instr), i ≠ .seed → exec i s = .next t → t.lvvalid = s.lvvalid) ∧
    (∀ (s : State) (v : Word), s.rst = false → s.inFlight = none →
      ∃ t, writeRegister offVsize v s = .next t ∧ t.lvvalid = false) ∧
    (∀ s t : State, step s = .next t → t.lvvalid ≠ s.lvvalid →
      (t.lvvalid = true ∧ s.commandRun = some 0x00000002 ∧ t.fail = false ∧ t.err = false) ∨
        (t.lvvalid = false ∧ s.rst = false ∧ s.inFlight = none ∧
          ∃ v, s.registerWritten = some (offVsize, v)) ∨
        (t.lvvalid = false ∧ s.script.head? = some .rstHigh)) ∧
    ∀ s : State, s.ready → s.vsizeLegal = true → s.vcountLegal = true → s.lvvalid = false →
      exec .encb s = .next { s with err := true, cause := .lvinvalid, result := 0, done := true }

/-- `FAIL` and `ERR` are sticky: no instruction but CLR changes them or the cause once one of them is set (R25, R228). -/
def Obligations.OnlyClrClearsFailure : Prop :=
  ∀ (s t : State) (i : Instr), s.fail = true ∨ s.err = true → i ≠ .clr → exec i s = .next t →
    t.fail = s.fail ∧ t.err = s.err ∧ t.cause = s.cause

/-- `LV` is written only by SEED and ENCB, `DB` only by PACK, ENCG and ENCB (R169), and no instruction writes `VSIZE`,
`VCOUNT`, `GLEN`, `SRC` or `DEND` (R27 to R31). -/
def Obligations.WhoWritesWhichRegister : Prop :=
  ∀ (s t : State) (i : Instr), exec i s = .next t →
    (i ≠ .seed → i ≠ .encb → t.lv = s.lv) ∧ (usesWindow i = false → t.db = s.db ∧ t.dst = s.dst) ∧
    t.vsize = s.vsize ∧ t.vcount = s.vcount ∧ t.glen = s.glen ∧ t.src = s.src ∧ t.dend = s.dend

/-- No command changes a byte outside its window; a command without a window, one ended by `Err` and a refused one change
no byte (R42, R52). -/
def Obligations.CommandsWriteOnlyTheirWindow : Prop :=
  ∀ (s t : State) (i : Instr), isCommand i = true → exec i s = .next t →
    keepsOutsideWindow s t ∧
    (usesWindow i = false ∨ (firstError i s).isSome = true ∨ s.ignoresCommand (commandWord i) = true →
      ∀ a, Memory.read t.mem a = Memory.read s.mem a)

/-- `STATUS` bit by bit; bits 7:5 and 31:12 read 0 (R25, R195). -/
def Obligations.StatusWordLayout : Prop :=
  ∀ s : State, s.statusWord.toNat =
    s.inFlight.isSome.toNat + 2 * s.done.toNat + 4 * s.fail.toNat + 8 * s.err.toNat + 16 * s.lvvalid.toNat +
      256 * (match s.cause with
        | .none => 0
        | .capacity => 1
        | .inapplicable => 2
        | .opcode => 8
        | .vsize => 9
        | .count => 10
        | .lvinvalid => 11
        | .range => 12)

/-- `VSIZE`: a write stores bits 8:0, whatever their value, and clears `LVVALID`; the rest reads 0; the legal values are the
64 multiples of 4 up to 256; an illegal one makes SEED and ENCB raise `Err(VSIZE)` (R26). -/
def Obligations.VsizeRegister : Prop :=
  (∀ (s : State) (v : Word), s.rst = false → s.inFlight = none →
      writeRegister offVsize v s = .next { s with vsize := v.extractLsb' 0 9, lvvalid := false } ∧
      ∀ t, writeRegister offVsize v s = .next t → (t.readValue offVsize).toNat = v.toNat % 512) ∧
    (∀ s : State, s.vsizeLegal = true ↔ ∃ k, 1 ≤ k ∧ k ≤ 64 ∧ s.vsize.toNat = 4 * k) ∧
    ∀ s : State, s.ready → s.vsizeLegal = false →
      exec .seed s = .next { s with err := true, cause := .vsize, result := 0, done := true } ∧
      exec .encb s = .next { s with err := true, cause := .vsize, result := 0, done := true }

/-- The other read-write registers: a write changes its register alone, and the register reads back the implemented bits of
the word (R27 to R31, R169). -/
def Obligations.ReadWriteRegistersReadBack : Prop :=
  ∀ (s : State) (v : Word), s.rst = false → s.inFlight = none → s.cfg.aw ≤ 32 →
    (∀ off ∈ [offVcount, offGlen], ∃ t, writeRegister off v s = .next t ∧ (t.readValue off).toNat = v.toNat % 512 ∧
      t = { s with vcount := t.vcount, glen := t.glen } ∧ (off = offVcount → t.glen = s.glen) ∧
      (off = offGlen → t.vcount = s.vcount)) ∧
    ∀ off ∈ [offSrc, offDst, offDend], ∃ t, writeRegister off v s = .next t ∧
      (t.readValue off).toNat = v.toNat % 2 ^ s.cfg.aw ∧ t = { s with src := t.src, dst := t.dst, dend := t.dend } ∧
      (off ≠ offSrc → t.src = s.src) ∧ (off ≠ offDst → t.dst = s.dst) ∧ (off ≠ offDend → t.dend = s.dend)

/-- Reserved offsets and `CMD` read 0; a write to a reserved or read-only register is ignored; a read has no side effect on
the block (R35, R24). -/
def Obligations.ReservedAndReadOnlyRegisters : Prop :=
  (∀ (s : State) (off : WordOff), s.inFlight = none →
      off.toNat = 0 ∨ (9 ≤ off.toNat ∧ off.toNat ≤ 63) ∨ 192 ≤ off.toNat → s.readValue off = 0) ∧
    (∀ (s : State) (off : WordOff) (v : Word), off.toNat = 1 ∨ 8 ≤ off.toNat →
      writeRegister off v s = .next s) ∧
    ∀ (s t : State) (off : WordOff), perform (.rd off) s = .next t →
      t = { s with rdata := t.rdata, draws := t.draws }

/-- While `BUSY = 1`, `STATUS` reads `BUSY = 1`, `DONE = 0` and the other fields as they were at acceptance, and a write to
any register, `CMD` included, is ignored (R36). -/
def Obligations.BusyBlockIgnoresWrites : Prop :=
  ∀ (s : State) (c : Word), s.ignoresCommand c = false →
    let b := startCommand c s
    (b.readValue offStatus).toNat = s.statusWord.toNat - 2 * s.done.toNat + 1 ∧
    ∀ (off : WordOff) (v : Word), writeRegister off v b = .next b

/-- A read of `LVW[j]` or `DBW[j]` whose four entries are specified gives them, the lowest index in bits 7:0 (R33, R34). -/
def Obligations.WindowsReadEntries : Prop :=
  ∀ (s : State) (j : Nat), j < 64 → s.inFlight = none → ∀ p ∈ [(offLvw, s.lv), (offDbw, s.db)],
    (∀ k, k < 4 → (ByteFile.entry p.2 (4 * j + k)).specified = true) →
    (s.readValue (p.1 + BitVec.ofNat 8 j)).toNat =
      (ByteFile.entry p.2 (4 * j)).val.toNat + 256 * (ByteFile.entry p.2 (4 * j + 1)).val.toNat +
        65536 * (ByteFile.entry p.2 (4 * j + 2)).val.toNat + 16777216 * (ByteFile.entry p.2 (4 * j + 3)).val.toNat

/-- The state after reset: `STATUS` and every register 0, every entry of `LV` and `DB` unspecified; a reset of an idle block
gives those values and touches no memory (R41). -/
def Obligations.ResetValues : Prop :=
  ∀ s : State, s.inFlight = none → ∃ t, perform .rstHigh s = .next t ∧ t.mem = s.mem ∧
    ∀ u ∈ [t, State.reset], u.statusWord = 0 ∧ u.vsize = 0 ∧ u.vcount = 0 ∧ u.glen = 0 ∧ u.src = 0 ∧ u.dst = 0 ∧
      u.dend = 0 ∧ u.result = 0 ∧
      ∀ k, k < 256 → (ByteFile.entry u.lv k).specified = false ∧ (ByteFile.entry u.db k).specified = false

/-- A reset while a command is in flight: the block is in its reset state, and no byte outside the command's window is
changed (R216). -/
def Obligations.ResetAbandonsCommand : Prop :=
  ∀ (s t : State) (c : Word), s.inFlight = some c → perform .rstHigh s = .next t →
    t.blockReset = t ∧ t.rst = true ∧ keepsOutsideWindow s t

/-- The invariant holds at reset. -/
def Obligations.ResetMeetsInvariant : Prop := State.reset.Inv

/-- Every step keeps the invariant: the parameters, the canonical memory inside the address space, the address bits, at most
one failure flag with its cause, a valid predictor written, `DONE` 0 while busy, the reset state while in reset (R8, R21,
R25, R29 to R31, R50, R165, R195, R215). -/
def Obligations.StepKeepsInvariant : Prop := ∀ s t : State, s.Inv → step s = .next t → t.Inv

/-- The parameters are never written (R8, R64). -/
def Obligations.StepKeepsParameters : Prop := ∀ s t : State, step s = .next t → t.cfg = s.cfg

/-- The fixed bytes of widths 2 and 4: the lowest index in the most significant bits, each field the smaller of the value
and the sentinel (R83, R125). -/
def Obligations.FixedBytesHoldFields : Prop :=
  ∀ g : List Byte, g.length = 16 →
    let f2 := fun i => min (g.getD i 0).toNat 3
    let f4 := fun i => min (g.getD i 0).toNat 15
    (∀ j, j < 4 → (fixedByte g .w2 j).toNat = 64 * f2 (4 * j) + 16 * f2 (4 * j + 1) + 4 * f2 (4 * j + 2) + f2 (4 * j + 3)) ∧
    ∀ j, j < 8 → (fixedByte g .w4 j).toNat = 16 * f4 (2 * j) + f4 (2 * j + 1)

/-- The length of a payload is its packed size, 4 to 20 at width 2 and 8 to 24 at width 4, and the packer gives the payload
exactly when the capacity is as large (R111, R112, R119). -/
def Obligations.PayloadHasPackedSize : Prop :=
  ∀ (g : List Byte) (b : Width) (n : Nat), g.length = 16 → packedSize g b = some n →
    (payload g b).length = n ∧ n ≤ 24 ∧ (b = .w2 → 4 ≤ n ∧ n ≤ 20) ∧ (b = .w4 → 8 ≤ n) ∧
    ∀ cap out, packGroup g b cap = some out ↔ n ≤ cap ∧ out = payload g b

/-- The escape byte of an escaped lane stands after the fixed bytes and the escape bytes of the lanes before it, and there
are as many escape bytes as escaped lanes (R128). -/
def Obligations.EscapeBytePosition : Prop :=
  ∀ (g : List Byte) (b : Width), g.length = 16 → b = .w2 ∨ b = .w4 →
    (∀ i, i < 16 → isEscaped b (g.getD i 0) = true →
      (payload g b)[16 / byteSize b + (g.take i).countP (isEscaped b)]? = some (g.getD i 0)) ∧
    (escapes b g).length = g.countP (fun v => decide (2 ^ widthBits b - 1 ≤ v.toNat)) ∧ (escapes b g).length ≤ 16

/-- The length a reader tells from the fields is the number of bytes the reference decoder consumes (R85, R130). -/
def Obligations.PayloadLengthIsBytesConsumed : Prop :=
  ∀ (p : List Byte) (b : Width), payloadLength p b = (unpackGroup p b).2

/-- The round trip of a group at every width that applies (R131). -/
def Obligations.GroupRoundTrip : Prop :=
  ∀ (g : List Byte) (b : Width) (n : Nat) (rest : List Byte), g.length = 16 → packedSize g b = some n →
    ∃ out, packGroup g b 24 = some out ∧ unpackGroup (out ++ rest) b = (g, n)

/-- The closed form of the selected width (R137). -/
def Obligations.SelectedWidthClosedForm : Prop :=
  ∀ g : List Byte, g.length = 16 →
    let s2 := 4 + g.countP (fun v => decide (3 ≤ v.toNat))
    let s4 := 8 + g.countP (fun v => decide (15 ≤ v.toNat))
    selectWidth g =
      if ∀ v ∈ g, v = 0 then .w1
      else if s2 < 16 ∧ s2 ≤ s4 then .w2
      else if s4 < 16 ∧ s4 < s2 then .w4
      else .w8

/-- An all-zero group selects width 1, no other group does, and the selected payload is never longer than 16 bytes
(R138). -/
def Obligations.SelectionProperties : Prop :=
  ∀ g : List Byte, g.length = 16 →
    ((∀ v ∈ g, v = 0) → selectWidth g = .w1 ∧ packedSize g .w1 = some 0) ∧
    ((∃ v ∈ g, v ≠ 0) → selectWidth g ≠ .w1 ∧ packedSize g .w1 = none) ∧
    ∃ n, packedSize g (selectWidth g) = some n ∧ n ≤ 16 ∧ (payload g (selectWidth g)).length = n

/-- The size of a channel, its bounds, and the least capacity at which it succeeds; from there on the bytes do not depend on
the capacity (R143). -/
def Obligations.ChannelSizeAndLeastCapacity : Prop :=
  ∀ buf : List Byte, buf.length % 16 = 0 → 16 ≤ buf.length →
    let groups := buf.length / 16
    let hsize := (groups + 3) / 4
    (∃ out, out.length = hsize + sizeBefore buf groups ∧ hsize ≤ out.length ∧ out.length ≤ hsize + 16 * groups ∧
      ∀ cap, channelNeed buf ≤ cap → encodeGroups buf cap = some out) ∧
    (∀ cap, cap < channelNeed buf → encodeGroups buf cap = none) ∧ hsize + 24 ≤ channelNeed buf

/-- The round trip of a channel (R144). -/
def Obligations.ChannelRoundTrip : Prop :=
  ∀ (buf out rest : List Byte) (cap : Nat), buf.length % 16 = 0 → encodeGroups buf cap = some out →
    decodeGroups (out ++ rest) (buf.length / 16) = (buf, out.length)

/-- A block's output fits its capacity and its bounds, and its new predictor is its last record in the entries below the
record size and the old one above (R155, R156). -/
def Obligations.BlockSizeAndPredictor : Prop :=
  ∀ (recs : List (List Byte)) (vs cap : Nat) (lv out lv' : List Byte), recs ≠ [] →
    encodeBlock recs vs lv cap = some (out, lv') →
    let groups := (recs.length + 15) / 16
    let hsize := (groups + 3) / 4
    out.length ≤ cap ∧ vs * hsize ≤ out.length ∧ out.length ≤ vs * (hsize + 16 * groups) ∧
    (∀ k, k < vs → lv'.getD k 0 = (recs.getLastD []).getD k 0) ∧ ∀ k, vs ≤ k → lv'.getD k 0 = lv.getD k 0

/-- "The codec is lossless": the round trip of a block (R160). -/
def Obligations.BlockRoundTrip : Prop :=
  ∀ (recs : List (List Byte)) (vs cap : Nat) (lv out lv' rest : List Byte), (∀ r ∈ recs, r.length = vs) →
    encodeBlock recs vs lv cap = some (out, lv') →
    decodeBlock (out ++ rest) vs recs.length lv = (recs, out.length)

/-- Predictor continuity: blocks encoded after other blocks, with the predictor carried or seeded anew from the last record
before them, give the same bytes as in one call (R159). -/
def Obligations.PredictorContinuity : Prop :=
  ∀ (vs cap : Nat) (first second : List (List (List Byte))) (blk : List (List Byte)) (lv lv2 out out2 : List Byte),
    first.getLast? = some blk → blk ≠ [] → blockLoop vs cap first lv out = some out2 →
    (∀ k, k < vs → lv2.getD k 0 = (blk.getLastD []).getD k 0) →
    blockLoop vs cap (first ++ second) lv out = blockLoop vs cap second lv2 out2

/-- The number of records of a block: never 0, a multiple of 16, at most 256, within the 8192 bytes of a block, and the
values of the spec's list at its ends (R177). -/
def Obligations.BlockVerticesRule : Prop :=
  (∀ vs, legalRecordSize vs = true →
      0 < blockVertices vs ∧ blockVertices vs % 16 = 0 ∧ blockVertices vs ≤ 256 ∧ blockVertices vs * vs ≤ 8192 ∧
        (blockVertices vs < 256 → 8192 < (blockVertices vs + 16) * vs)) ∧
    blockVertices 32 = 256 ∧ blockVertices 36 = 224 ∧ blockVertices 172 = 32 ∧ blockVertices 256 = 32

/-- Monotonic capacity: there is a length `L` such that a stream call with less capacity is `Null` and one with `L` or more
gives the same `L` bytes (R182). -/
def Obligations.StreamMonotonicCapacity : Prop :=
  ∀ (recs : List (List Byte)) (vs : Nat), legalRecordSize vs = true → recs ≠ [] → (∀ r ∈ recs, r.length = vs) →
    ∃ out : List Byte, (∀ cap, cap < out.length → encodeStream recs vs cap = none) ∧
      ∀ cap, out.length ≤ cap → encodeStream recs vs cap = some out

/-- The host's script realises `encode_stream`: from an idle block it comes to its end, returns 0 exactly when
`encode_stream` is `Null`, and else its length, with the stream standing at the destination, for a destination whose end
`O + cap` is an address, so that `DEND` can hold it (R187, R31); StreamToTopOfMemoryIsProgrammingError says what happens
otherwise. -/
def Obligations.StreamScriptRealisesEncodeStream : Prop :=
  ∀ (s : State) (c : StreamCall) (rest : List HostAction), s.Inv → s.ready → s.script = .encodeStream c :: rest →
    legalRecordSize c.vs = true → 1 ≤ c.count → c.out + c.cap < 2 ^ s.cfg.aw → c.src + c.count * c.vs ≤ 2 ^ s.cfg.aw →
    (c.out + c.cap ≤ c.src ∨ c.src + c.count * c.vs ≤ c.out) → covers s.cfg c.out (c.out + c.cap) = true →
    covers s.cfg c.src (c.src + c.count * c.vs) = true →
    ∃ k t, run k s = .next t ∧ t.script = rest ∧
      match encodeStream ((List.range c.count).map fun i => Memory.readBytes s.mem (c.src + i * c.vs) c.vs) c.vs c.cap with
      | none => t.callResult = .returned 0
      | some out => t.callResult = .returned out.length ∧ Memory.readBytes t.mem c.out out.length = out

/-- The reader's four width codes: with a group's payload at its position, it takes the 16 values and moves past the payload,
and nothing else changes (R80, R84, R130; that the reader runs them is the model's choice, log 7). -/
def Obligations.WidthCodesTakeGroups : Prop :=
  ∀ (s : State) (p : Instr × Width) (g : List Byte) (n : Nat),
    p ∈ [(Instr.width1, Width.w1), (Instr.width2, Width.w2), (Instr.width4, Width.w4), (Instr.width8, Width.w8)] →
    g.length = 16 → packedSize g p.2 = some n → Memory.readBytes s.mem s.reader.pos n = payload g p.2 →
    s.reader.pos + n ≤ 2 ^ s.cfg.aw → covers s.cfg s.reader.pos (s.reader.pos + n) = true → s.inFlight = none →
    exec p.1 s = .next { s with reader := { pos := s.reader.pos + n, values := s.reader.values ++ g } }

/-- The reader's four width codes complete on every populated memory: 16 values are taken, the position moves by the length
told by the fields, and nothing else changes (R85; that the reader runs them is the model's choice, log 7). -/
def Obligations.WidthCodesComplete : Prop :=
  ∀ (s : State) (p : Instr × Width),
    p ∈ [(Instr.width1, Width.w1), (Instr.width2, Width.w2), (Instr.width4, Width.w4), (Instr.width8, Width.w8)] →
    s.inFlight = none →
    let n := payloadLength (Memory.readBytes s.mem s.reader.pos 24) p.2
    s.reader.pos + n ≤ 2 ^ s.cfg.aw → covers s.cfg s.reader.pos (s.reader.pos + n) = true →
    ∃ v : List Byte, v.length = 16 ∧
      exec p.1 s = .next { s with reader := { pos := s.reader.pos + n, values := s.reader.values ++ v } }

/-- The format byte: a call whose capacity is below `1 + vertex_size` returns 0; else `0xA1` is written at the destination
and no other byte changes (R176; that the host runs it as its first step is the model's choice, log 8). -/
def Obligations.FormatByteIsWrittenFirst : Prop :=
  ∀ s : State, s.inFlight = none →
    (s.call.cap < 1 + s.call.vs →
      exec .formatV1 s = .next { s with callResult := .returned 0, script := abandonCall s.script }) ∧
    (1 + s.call.vs ≤ s.call.cap → s.call.out + 1 ≤ 2 ^ s.cfg.aw →
      covers s.cfg s.call.out (s.call.out + 1) = true →
      ∃ t, exec .formatV1 s = .next t ∧ t = { s with mem := t.mem } ∧ Memory.read t.mem s.call.out = 0xA1 ∧
        ∀ a, a ≠ s.call.out → Memory.read t.mem a = Memory.read s.mem a)

/-- A command shown with `BUSY = 1` and completed later is the same transition as one that is not (R170; the action that
shows it is the model's choice, log 6). -/
def Obligations.StartThenCompleteIsOneTransition : Prop :=
  ∀ (s : State) (c : Word), s.ignoresCommand c = false → completeInFlight (startCommand c s) = writeCommand c s

/-- The hand-off rule: while a command is in flight the host's access to its window and its write to its source are refused
(R60, R207). That the source and the window are those of R52 even for a command that will end by `Err` and touch neither is
the model's choice, and refuses more than R60 asks (log 9). -/
def Obligations.HandOffRuleIsGuarded : Prop :=
  ∀ (s : State) (c : Word) (i : Instr) (a : Nat) (b : Byte), s.inFlight = some c → decodeCommand c = .ok i →
    a < 2 ^ s.cfg.aw → covers s.cfg a (a + 1) = true →
    (usesWindow i = true → s.inWindow a →
      perform (.memw a [b]) s = .refused .handOffBroken ∧ perform (.memr a 1) s = .refused .handOffBroken) ∧
    (s.src.toNat ≤ a → a < s.src.toNat + sourceLength i s → perform (.memw a [b]) s = .refused .handOffBroken)

/-- A destination that ends at the top of the address space, `O + cap = 2^AW`: `DEND` holds bits `AW-1:0` alone and so 0
(R31), the first ENCB finds `DST > DEND` and raises `Err(RANGE)` (R65), and the call ends as a programming error (R186), or
with 0 when the first capacity test fails (R176). -/
def Obligations.StreamToTopOfMemoryIsProgrammingError : Prop :=
  ∀ (s : State) (c : StreamCall) (rest : List HostAction), s.Inv → s.ready → s.script = .encodeStream c :: rest →
    legalRecordSize c.vs = true → 1 ≤ c.count → c.out + c.cap = 2 ^ s.cfg.aw → c.src + c.count * c.vs ≤ 2 ^ s.cfg.aw →
    c.src + c.count * c.vs ≤ c.out → covers s.cfg c.out (c.out + c.cap) = true →
    covers s.cfg c.src (c.src + c.count * c.vs) = true →
    ∃ k t, run k s = .next t ∧ t.script = rest ∧
      t.callResult = if c.cap < 1 + c.vs then .returned 0 else .programmingError
end

