-- ==== Sys2Proof/Laws/Encoding.lean ====
section
/-! SUPPORT. A command word and its fields are the same thing (30_encoding.md R70). -/

namespace Sys2Proof

theorem fieldsOf_wordOf (f : CmdFields) : fieldsOf (wordOf f) = f := by
  obtain ⟨op, w, z6, a, b, z24⟩ := f
  simp only [fieldsOf, wordOf, operandA, operandB, CmdFields.mk.injEq]
  refine ⟨?_, ?_, ?_, ?_, ?_, ?_⟩ <;>
    (ext i hi; simp only [BitVec.getElem_extractLsb', BitVec.getLsbD_append])
  all_goals rw [← BitVec.getLsbD_eq_getElem]
  all_goals repeat' split
  all_goals first
    | omega
    | (congr 1; omega)

theorem wordOf_fieldsOf (c : Word) : wordOf (fieldsOf c) = c := by
  simp only [fieldsOf, wordOf, operandA, operandB]
  ext i hi
  simp only [BitVec.getElem_append, BitVec.getElem_extractLsb']
  repeat' split
  all_goals (rw [← BitVec.getLsbD_eq_getElem]; congr 1; omega)

/-- The opcode field of a command word is the row's opcode (R71). -/
theorem op_commandWord_zz8 (a : Byte) : (fieldsOf (commandWord (.zz8 a))).op = 3 := by
  simp [commandWord, fieldsOf_wordOf, cmdFields]

theorem op_commandWord_dz8 (a b : Byte) : (fieldsOf (commandWord (.dz8 a b))).op = 4 := by
  simp [commandWord, fieldsOf_wordOf, cmdFields]

end Sys2Proof
end

