-- ==== Sys2Proof/Laws/State.lean ====
section
/-! SUPPORT. What each update of State does to each field, true by rfl, so that no proof unfolds a record update. -/

namespace Sys2Proof.Machine

variable (s : State)

@[simp] theorem State.spoil_cfg (a n : Nat) : (s.spoil a n).cfg = s.cfg := rfl
@[simp] theorem State.spoil_lv (a n : Nat) : (s.spoil a n).lv = s.lv := rfl
@[simp] theorem State.spoil_db (a n : Nat) : (s.spoil a n).db = s.db := rfl
@[simp] theorem State.spoil_inFlight (a n : Nat) : (s.spoil a n).inFlight = s.inFlight := rfl
@[simp] theorem State.spoil_done (a n : Nat) : (s.spoil a n).done = s.done := rfl
@[simp] theorem State.spoil_fail (a n : Nat) : (s.spoil a n).fail = s.fail := rfl
@[simp] theorem State.spoil_err (a n : Nat) : (s.spoil a n).err = s.err := rfl
@[simp] theorem State.spoil_lvvalid (a n : Nat) : (s.spoil a n).lvvalid = s.lvvalid := rfl
@[simp] theorem State.spoil_cause (a n : Nat) : (s.spoil a n).cause = s.cause := rfl
@[simp] theorem State.spoil_vsize (a n : Nat) : (s.spoil a n).vsize = s.vsize := rfl
@[simp] theorem State.spoil_vcount (a n : Nat) : (s.spoil a n).vcount = s.vcount := rfl
@[simp] theorem State.spoil_glen (a n : Nat) : (s.spoil a n).glen = s.glen := rfl
@[simp] theorem State.spoil_src (a n : Nat) : (s.spoil a n).src = s.src := rfl
@[simp] theorem State.spoil_dst (a n : Nat) : (s.spoil a n).dst = s.dst := rfl
@[simp] theorem State.spoil_dend (a n : Nat) : (s.spoil a n).dend = s.dend := rfl
@[simp] theorem State.spoil_result (a n : Nat) : (s.spoil a n).result = s.result := rfl
@[simp] theorem State.spoil_rst (a n : Nat) : (s.spoil a n).rst = s.rst := rfl
@[simp] theorem State.spoil_mem (a n : Nat) : (s.spoil a n).mem = s.mem.write a (s.freeBytes n) := rfl
@[simp] theorem State.spoil_script (a n : Nat) : (s.spoil a n).script = s.script := rfl
@[simp] theorem State.spoil_rdata (a n : Nat) : (s.spoil a n).rdata = s.rdata := rfl
@[simp] theorem State.spoil_mdata (a n : Nat) : (s.spoil a n).mdata = s.mdata := rfl
@[simp] theorem State.spoil_reader (a n : Nat) : (s.spoil a n).reader = s.reader := rfl
@[simp] theorem State.spoil_call (a n : Nat) : (s.spoil a n).call = s.call := rfl
@[simp] theorem State.spoil_callResult (a n : Nat) : (s.spoil a n).callResult = s.callResult := rfl
@[simp] theorem State.spoil_draws (a n : Nat) : (s.spoil a n).draws = s.draws + n := rfl

@[simp] theorem State.spoilWindow_cfg : (s.spoilWindow).cfg = s.cfg := rfl
@[simp] theorem State.spoilWindow_lv : (s.spoilWindow).lv = s.lv := rfl
@[simp] theorem State.spoilWindow_db : (s.spoilWindow).db = s.db := rfl
@[simp] theorem State.spoilWindow_inFlight : (s.spoilWindow).inFlight = s.inFlight := rfl
@[simp] theorem State.spoilWindow_done : (s.spoilWindow).done = s.done := rfl
@[simp] theorem State.spoilWindow_fail : (s.spoilWindow).fail = s.fail := rfl
@[simp] theorem State.spoilWindow_err : (s.spoilWindow).err = s.err := rfl
@[simp] theorem State.spoilWindow_lvvalid : (s.spoilWindow).lvvalid = s.lvvalid := rfl
@[simp] theorem State.spoilWindow_cause : (s.spoilWindow).cause = s.cause := rfl
@[simp] theorem State.spoilWindow_vsize : (s.spoilWindow).vsize = s.vsize := rfl
@[simp] theorem State.spoilWindow_vcount : (s.spoilWindow).vcount = s.vcount := rfl
@[simp] theorem State.spoilWindow_glen : (s.spoilWindow).glen = s.glen := rfl
@[simp] theorem State.spoilWindow_src : (s.spoilWindow).src = s.src := rfl
@[simp] theorem State.spoilWindow_dst : (s.spoilWindow).dst = s.dst := rfl
@[simp] theorem State.spoilWindow_dend : (s.spoilWindow).dend = s.dend := rfl
@[simp] theorem State.spoilWindow_result : (s.spoilWindow).result = s.result := rfl
@[simp] theorem State.spoilWindow_rst : (s.spoilWindow).rst = s.rst := rfl
@[simp] theorem State.spoilWindow_mem : (s.spoilWindow).mem = s.mem.write s.dst.toNat (s.freeBytes s.capacity) := rfl
@[simp] theorem State.spoilWindow_script : (s.spoilWindow).script = s.script := rfl
@[simp] theorem State.spoilWindow_rdata : (s.spoilWindow).rdata = s.rdata := rfl
@[simp] theorem State.spoilWindow_mdata : (s.spoilWindow).mdata = s.mdata := rfl
@[simp] theorem State.spoilWindow_reader : (s.spoilWindow).reader = s.reader := rfl
@[simp] theorem State.spoilWindow_call : (s.spoilWindow).call = s.call := rfl
@[simp] theorem State.spoilWindow_callResult : (s.spoilWindow).callResult = s.callResult := rfl
@[simp] theorem State.spoilWindow_draws : (s.spoilWindow).draws = s.draws + s.capacity := rfl

@[simp] theorem State.produce_cfg (out : List Byte) : (s.produce out).cfg = s.cfg := rfl
@[simp] theorem State.produce_lv (out : List Byte) : (s.produce out).lv = s.lv := rfl
@[simp] theorem State.produce_db (out : List Byte) : (s.produce out).db = s.db := rfl
@[simp] theorem State.produce_inFlight (out : List Byte) : (s.produce out).inFlight = s.inFlight := rfl
@[simp] theorem State.produce_done (out : List Byte) : (s.produce out).done = s.done := rfl
@[simp] theorem State.produce_fail (out : List Byte) : (s.produce out).fail = s.fail := rfl
@[simp] theorem State.produce_err (out : List Byte) : (s.produce out).err = s.err := rfl
@[simp] theorem State.produce_lvvalid (out : List Byte) : (s.produce out).lvvalid = s.lvvalid := rfl
@[simp] theorem State.produce_cause (out : List Byte) : (s.produce out).cause = s.cause := rfl
@[simp] theorem State.produce_vsize (out : List Byte) : (s.produce out).vsize = s.vsize := rfl
@[simp] theorem State.produce_vcount (out : List Byte) : (s.produce out).vcount = s.vcount := rfl
@[simp] theorem State.produce_glen (out : List Byte) : (s.produce out).glen = s.glen := rfl
@[simp] theorem State.produce_src (out : List Byte) : (s.produce out).src = s.src := rfl
@[simp] theorem State.produce_dst (out : List Byte) : (s.produce out).dst = addrBits s.cfg (s.dst.toNat + out.length) := rfl
@[simp] theorem State.produce_dend (out : List Byte) : (s.produce out).dend = s.dend := rfl
@[simp] theorem State.produce_result (out : List Byte) : (s.produce out).result = BitVec.ofNat 32 out.length := rfl
@[simp] theorem State.produce_rst (out : List Byte) : (s.produce out).rst = s.rst := rfl
@[simp] theorem State.produce_mem (out : List Byte) : (s.produce out).mem = s.mem.write s.dst.toNat (out ++ s.freeBytes (s.capacity - out.length)) := rfl
@[simp] theorem State.produce_script (out : List Byte) : (s.produce out).script = s.script := rfl
@[simp] theorem State.produce_rdata (out : List Byte) : (s.produce out).rdata = s.rdata := rfl
@[simp] theorem State.produce_mdata (out : List Byte) : (s.produce out).mdata = s.mdata := rfl
@[simp] theorem State.produce_reader (out : List Byte) : (s.produce out).reader = s.reader := rfl
@[simp] theorem State.produce_call (out : List Byte) : (s.produce out).call = s.call := rfl
@[simp] theorem State.produce_callResult (out : List Byte) : (s.produce out).callResult = s.callResult := rfl
@[simp] theorem State.produce_draws (out : List Byte) : (s.produce out).draws = s.draws + (s.capacity - out.length) := rfl

@[simp] theorem State.raiseFail_cfg (c : Cause) : (s.raiseFail c).cfg = s.cfg := rfl
@[simp] theorem State.raiseFail_lv (c : Cause) : (s.raiseFail c).lv = s.lv := rfl
@[simp] theorem State.raiseFail_db (c : Cause) : (s.raiseFail c).db = s.db := rfl
@[simp] theorem State.raiseFail_inFlight (c : Cause) : (s.raiseFail c).inFlight = s.inFlight := rfl
@[simp] theorem State.raiseFail_done (c : Cause) : (s.raiseFail c).done = s.done := rfl
@[simp] theorem State.raiseFail_fail (c : Cause) : (s.raiseFail c).fail = true := rfl
@[simp] theorem State.raiseFail_err (c : Cause) : (s.raiseFail c).err = s.err := rfl
@[simp] theorem State.raiseFail_lvvalid (c : Cause) : (s.raiseFail c).lvvalid = s.lvvalid := rfl
@[simp] theorem State.raiseFail_cause (c : Cause) : (s.raiseFail c).cause = c := rfl
@[simp] theorem State.raiseFail_vsize (c : Cause) : (s.raiseFail c).vsize = s.vsize := rfl
@[simp] theorem State.raiseFail_vcount (c : Cause) : (s.raiseFail c).vcount = s.vcount := rfl
@[simp] theorem State.raiseFail_glen (c : Cause) : (s.raiseFail c).glen = s.glen := rfl
@[simp] theorem State.raiseFail_src (c : Cause) : (s.raiseFail c).src = s.src := rfl
@[simp] theorem State.raiseFail_dst (c : Cause) : (s.raiseFail c).dst = s.dst := rfl
@[simp] theorem State.raiseFail_dend (c : Cause) : (s.raiseFail c).dend = s.dend := rfl
@[simp] theorem State.raiseFail_result (c : Cause) : (s.raiseFail c).result = 0 := rfl
@[simp] theorem State.raiseFail_rst (c : Cause) : (s.raiseFail c).rst = s.rst := rfl
@[simp] theorem State.raiseFail_mem (c : Cause) : (s.raiseFail c).mem = s.mem := rfl
@[simp] theorem State.raiseFail_script (c : Cause) : (s.raiseFail c).script = s.script := rfl
@[simp] theorem State.raiseFail_rdata (c : Cause) : (s.raiseFail c).rdata = s.rdata := rfl
@[simp] theorem State.raiseFail_mdata (c : Cause) : (s.raiseFail c).mdata = s.mdata := rfl
@[simp] theorem State.raiseFail_reader (c : Cause) : (s.raiseFail c).reader = s.reader := rfl
@[simp] theorem State.raiseFail_call (c : Cause) : (s.raiseFail c).call = s.call := rfl
@[simp] theorem State.raiseFail_callResult (c : Cause) : (s.raiseFail c).callResult = s.callResult := rfl
@[simp] theorem State.raiseFail_draws (c : Cause) : (s.raiseFail c).draws = s.draws := rfl

@[simp] theorem State.raiseErr_cfg (c : Cause) : (s.raiseErr c).cfg = s.cfg := rfl
@[simp] theorem State.raiseErr_lv (c : Cause) : (s.raiseErr c).lv = s.lv := rfl
@[simp] theorem State.raiseErr_db (c : Cause) : (s.raiseErr c).db = s.db := rfl
@[simp] theorem State.raiseErr_inFlight (c : Cause) : (s.raiseErr c).inFlight = s.inFlight := rfl
@[simp] theorem State.raiseErr_done (c : Cause) : (s.raiseErr c).done = s.done := rfl
@[simp] theorem State.raiseErr_fail (c : Cause) : (s.raiseErr c).fail = s.fail := rfl
@[simp] theorem State.raiseErr_err (c : Cause) : (s.raiseErr c).err = true := rfl
@[simp] theorem State.raiseErr_lvvalid (c : Cause) : (s.raiseErr c).lvvalid = s.lvvalid := rfl
@[simp] theorem State.raiseErr_cause (c : Cause) : (s.raiseErr c).cause = c := rfl
@[simp] theorem State.raiseErr_vsize (c : Cause) : (s.raiseErr c).vsize = s.vsize := rfl
@[simp] theorem State.raiseErr_vcount (c : Cause) : (s.raiseErr c).vcount = s.vcount := rfl
@[simp] theorem State.raiseErr_glen (c : Cause) : (s.raiseErr c).glen = s.glen := rfl
@[simp] theorem State.raiseErr_src (c : Cause) : (s.raiseErr c).src = s.src := rfl
@[simp] theorem State.raiseErr_dst (c : Cause) : (s.raiseErr c).dst = s.dst := rfl
@[simp] theorem State.raiseErr_dend (c : Cause) : (s.raiseErr c).dend = s.dend := rfl
@[simp] theorem State.raiseErr_result (c : Cause) : (s.raiseErr c).result = 0 := rfl
@[simp] theorem State.raiseErr_rst (c : Cause) : (s.raiseErr c).rst = s.rst := rfl
@[simp] theorem State.raiseErr_mem (c : Cause) : (s.raiseErr c).mem = s.mem := rfl
@[simp] theorem State.raiseErr_script (c : Cause) : (s.raiseErr c).script = s.script := rfl
@[simp] theorem State.raiseErr_rdata (c : Cause) : (s.raiseErr c).rdata = s.rdata := rfl
@[simp] theorem State.raiseErr_mdata (c : Cause) : (s.raiseErr c).mdata = s.mdata := rfl
@[simp] theorem State.raiseErr_reader (c : Cause) : (s.raiseErr c).reader = s.reader := rfl
@[simp] theorem State.raiseErr_call (c : Cause) : (s.raiseErr c).call = s.call := rfl
@[simp] theorem State.raiseErr_callResult (c : Cause) : (s.raiseErr c).callResult = s.callResult := rfl
@[simp] theorem State.raiseErr_draws (c : Cause) : (s.raiseErr c).draws = s.draws := rfl

@[simp] theorem State.clearFailure_cfg : (s.clearFailure).cfg = s.cfg := rfl
@[simp] theorem State.clearFailure_lv : (s.clearFailure).lv = s.lv := rfl
@[simp] theorem State.clearFailure_db : (s.clearFailure).db = s.db := rfl
@[simp] theorem State.clearFailure_inFlight : (s.clearFailure).inFlight = s.inFlight := rfl
@[simp] theorem State.clearFailure_done : (s.clearFailure).done = s.done := rfl
@[simp] theorem State.clearFailure_fail : (s.clearFailure).fail = false := rfl
@[simp] theorem State.clearFailure_err : (s.clearFailure).err = false := rfl
@[simp] theorem State.clearFailure_lvvalid : (s.clearFailure).lvvalid = s.lvvalid := rfl
@[simp] theorem State.clearFailure_cause : (s.clearFailure).cause = .none := rfl
@[simp] theorem State.clearFailure_vsize : (s.clearFailure).vsize = s.vsize := rfl
@[simp] theorem State.clearFailure_vcount : (s.clearFailure).vcount = s.vcount := rfl
@[simp] theorem State.clearFailure_glen : (s.clearFailure).glen = s.glen := rfl
@[simp] theorem State.clearFailure_src : (s.clearFailure).src = s.src := rfl
@[simp] theorem State.clearFailure_dst : (s.clearFailure).dst = s.dst := rfl
@[simp] theorem State.clearFailure_dend : (s.clearFailure).dend = s.dend := rfl
@[simp] theorem State.clearFailure_result : (s.clearFailure).result = 0 := rfl
@[simp] theorem State.clearFailure_rst : (s.clearFailure).rst = s.rst := rfl
@[simp] theorem State.clearFailure_mem : (s.clearFailure).mem = s.mem := rfl
@[simp] theorem State.clearFailure_script : (s.clearFailure).script = s.script := rfl
@[simp] theorem State.clearFailure_rdata : (s.clearFailure).rdata = s.rdata := rfl
@[simp] theorem State.clearFailure_mdata : (s.clearFailure).mdata = s.mdata := rfl
@[simp] theorem State.clearFailure_reader : (s.clearFailure).reader = s.reader := rfl
@[simp] theorem State.clearFailure_call : (s.clearFailure).call = s.call := rfl
@[simp] theorem State.clearFailure_callResult : (s.clearFailure).callResult = s.callResult := rfl
@[simp] theorem State.clearFailure_draws : (s.clearFailure).draws = s.draws := rfl

@[simp] theorem State.blockReset_cfg : (s.blockReset).cfg = s.cfg := rfl
@[simp] theorem State.blockReset_lv : (s.blockReset).lv = unspecifiedFile := rfl
@[simp] theorem State.blockReset_db : (s.blockReset).db = unspecifiedFile := rfl
@[simp] theorem State.blockReset_inFlight : (s.blockReset).inFlight = none := rfl
@[simp] theorem State.blockReset_done : (s.blockReset).done = false := rfl
@[simp] theorem State.blockReset_fail : (s.blockReset).fail = false := rfl
@[simp] theorem State.blockReset_err : (s.blockReset).err = false := rfl
@[simp] theorem State.blockReset_lvvalid : (s.blockReset).lvvalid = false := rfl
@[simp] theorem State.blockReset_cause : (s.blockReset).cause = .none := rfl
@[simp] theorem State.blockReset_vsize : (s.blockReset).vsize = 0 := rfl
@[simp] theorem State.blockReset_vcount : (s.blockReset).vcount = 0 := rfl
@[simp] theorem State.blockReset_glen : (s.blockReset).glen = 0 := rfl
@[simp] theorem State.blockReset_src : (s.blockReset).src = 0 := rfl
@[simp] theorem State.blockReset_dst : (s.blockReset).dst = 0 := rfl
@[simp] theorem State.blockReset_dend : (s.blockReset).dend = 0 := rfl
@[simp] theorem State.blockReset_result : (s.blockReset).result = 0 := rfl
@[simp] theorem State.blockReset_rst : (s.blockReset).rst = s.rst := rfl
@[simp] theorem State.blockReset_mem : (s.blockReset).mem = s.mem := rfl
@[simp] theorem State.blockReset_script : (s.blockReset).script = s.script := rfl
@[simp] theorem State.blockReset_rdata : (s.blockReset).rdata = s.rdata := rfl
@[simp] theorem State.blockReset_mdata : (s.blockReset).mdata = s.mdata := rfl
@[simp] theorem State.blockReset_reader : (s.blockReset).reader = s.reader := rfl
@[simp] theorem State.blockReset_call : (s.blockReset).call = s.call := rfl
@[simp] theorem State.blockReset_callResult : (s.blockReset).callResult = s.callResult := rfl
@[simp] theorem State.blockReset_draws : (s.blockReset).draws = s.draws := rfl

@[simp] theorem State.accept_cfg (c : Word) : (s.accept c).cfg = s.cfg := rfl
@[simp] theorem State.accept_lv (c : Word) : (s.accept c).lv = s.lv := rfl
@[simp] theorem State.accept_db (c : Word) : (s.accept c).db = s.db := rfl
@[simp] theorem State.accept_inFlight (c : Word) : (s.accept c).inFlight = some c := rfl
@[simp] theorem State.accept_done (c : Word) : (s.accept c).done = false := rfl
@[simp] theorem State.accept_fail (c : Word) : (s.accept c).fail = s.fail := rfl
@[simp] theorem State.accept_err (c : Word) : (s.accept c).err = s.err := rfl
@[simp] theorem State.accept_lvvalid (c : Word) : (s.accept c).lvvalid = s.lvvalid := rfl
@[simp] theorem State.accept_cause (c : Word) : (s.accept c).cause = s.cause := rfl
@[simp] theorem State.accept_vsize (c : Word) : (s.accept c).vsize = s.vsize := rfl
@[simp] theorem State.accept_vcount (c : Word) : (s.accept c).vcount = s.vcount := rfl
@[simp] theorem State.accept_glen (c : Word) : (s.accept c).glen = s.glen := rfl
@[simp] theorem State.accept_src (c : Word) : (s.accept c).src = s.src := rfl
@[simp] theorem State.accept_dst (c : Word) : (s.accept c).dst = s.dst := rfl
@[simp] theorem State.accept_dend (c : Word) : (s.accept c).dend = s.dend := rfl
@[simp] theorem State.accept_result (c : Word) : (s.accept c).result = s.result := rfl
@[simp] theorem State.accept_rst (c : Word) : (s.accept c).rst = s.rst := rfl
@[simp] theorem State.accept_mem (c : Word) : (s.accept c).mem = s.mem := rfl
@[simp] theorem State.accept_script (c : Word) : (s.accept c).script = s.script := rfl
@[simp] theorem State.accept_rdata (c : Word) : (s.accept c).rdata = s.rdata := rfl
@[simp] theorem State.accept_mdata (c : Word) : (s.accept c).mdata = s.mdata := rfl
@[simp] theorem State.accept_reader (c : Word) : (s.accept c).reader = s.reader := rfl
@[simp] theorem State.accept_call (c : Word) : (s.accept c).call = s.call := rfl
@[simp] theorem State.accept_callResult (c : Word) : (s.accept c).callResult = s.callResult := rfl
@[simp] theorem State.accept_draws (c : Word) : (s.accept c).draws = s.draws := rfl

@[simp] theorem State.complete_cfg : (s.complete).cfg = s.cfg := rfl
@[simp] theorem State.complete_lv : (s.complete).lv = s.lv := rfl
@[simp] theorem State.complete_db : (s.complete).db = s.db := rfl
@[simp] theorem State.complete_inFlight : (s.complete).inFlight = none := rfl
@[simp] theorem State.complete_done : (s.complete).done = true := rfl
@[simp] theorem State.complete_fail : (s.complete).fail = s.fail := rfl
@[simp] theorem State.complete_err : (s.complete).err = s.err := rfl
@[simp] theorem State.complete_lvvalid : (s.complete).lvvalid = s.lvvalid := rfl
@[simp] theorem State.complete_cause : (s.complete).cause = s.cause := rfl
@[simp] theorem State.complete_vsize : (s.complete).vsize = s.vsize := rfl
@[simp] theorem State.complete_vcount : (s.complete).vcount = s.vcount := rfl
@[simp] theorem State.complete_glen : (s.complete).glen = s.glen := rfl
@[simp] theorem State.complete_src : (s.complete).src = s.src := rfl
@[simp] theorem State.complete_dst : (s.complete).dst = s.dst := rfl
@[simp] theorem State.complete_dend : (s.complete).dend = s.dend := rfl
@[simp] theorem State.complete_result : (s.complete).result = s.result := rfl
@[simp] theorem State.complete_rst : (s.complete).rst = s.rst := rfl
@[simp] theorem State.complete_mem : (s.complete).mem = s.mem := rfl
@[simp] theorem State.complete_script : (s.complete).script = s.script := rfl
@[simp] theorem State.complete_rdata : (s.complete).rdata = s.rdata := rfl
@[simp] theorem State.complete_mdata : (s.complete).mdata = s.mdata := rfl
@[simp] theorem State.complete_reader : (s.complete).reader = s.reader := rfl
@[simp] theorem State.complete_call : (s.complete).call = s.call := rfl
@[simp] theorem State.complete_callResult : (s.complete).callResult = s.callResult := rfl
@[simp] theorem State.complete_draws : (s.complete).draws = s.draws := rfl

@[simp] theorem State.setResult_cfg (v : Word) : (s.setResult v).cfg = s.cfg := rfl
@[simp] theorem State.setResult_lv (v : Word) : (s.setResult v).lv = s.lv := rfl
@[simp] theorem State.setResult_db (v : Word) : (s.setResult v).db = s.db := rfl
@[simp] theorem State.setResult_inFlight (v : Word) : (s.setResult v).inFlight = s.inFlight := rfl
@[simp] theorem State.setResult_done (v : Word) : (s.setResult v).done = s.done := rfl
@[simp] theorem State.setResult_fail (v : Word) : (s.setResult v).fail = s.fail := rfl
@[simp] theorem State.setResult_err (v : Word) : (s.setResult v).err = s.err := rfl
@[simp] theorem State.setResult_lvvalid (v : Word) : (s.setResult v).lvvalid = s.lvvalid := rfl
@[simp] theorem State.setResult_cause (v : Word) : (s.setResult v).cause = s.cause := rfl
@[simp] theorem State.setResult_vsize (v : Word) : (s.setResult v).vsize = s.vsize := rfl
@[simp] theorem State.setResult_vcount (v : Word) : (s.setResult v).vcount = s.vcount := rfl
@[simp] theorem State.setResult_glen (v : Word) : (s.setResult v).glen = s.glen := rfl
@[simp] theorem State.setResult_src (v : Word) : (s.setResult v).src = s.src := rfl
@[simp] theorem State.setResult_dst (v : Word) : (s.setResult v).dst = s.dst := rfl
@[simp] theorem State.setResult_dend (v : Word) : (s.setResult v).dend = s.dend := rfl
@[simp] theorem State.setResult_result (v : Word) : (s.setResult v).result = v := rfl
@[simp] theorem State.setResult_rst (v : Word) : (s.setResult v).rst = s.rst := rfl
@[simp] theorem State.setResult_mem (v : Word) : (s.setResult v).mem = s.mem := rfl
@[simp] theorem State.setResult_script (v : Word) : (s.setResult v).script = s.script := rfl
@[simp] theorem State.setResult_rdata (v : Word) : (s.setResult v).rdata = s.rdata := rfl
@[simp] theorem State.setResult_mdata (v : Word) : (s.setResult v).mdata = s.mdata := rfl
@[simp] theorem State.setResult_reader (v : Word) : (s.setResult v).reader = s.reader := rfl
@[simp] theorem State.setResult_call (v : Word) : (s.setResult v).call = s.call := rfl
@[simp] theorem State.setResult_callResult (v : Word) : (s.setResult v).callResult = s.callResult := rfl
@[simp] theorem State.setResult_draws (v : Word) : (s.setResult v).draws = s.draws := rfl

@[simp] theorem State.writeVsize_cfg (v : Word) : (s.writeVsize v).cfg = s.cfg := rfl
@[simp] theorem State.writeVsize_lv (v : Word) : (s.writeVsize v).lv = s.lv := rfl
@[simp] theorem State.writeVsize_db (v : Word) : (s.writeVsize v).db = s.db := rfl
@[simp] theorem State.writeVsize_inFlight (v : Word) : (s.writeVsize v).inFlight = s.inFlight := rfl
@[simp] theorem State.writeVsize_done (v : Word) : (s.writeVsize v).done = s.done := rfl
@[simp] theorem State.writeVsize_fail (v : Word) : (s.writeVsize v).fail = s.fail := rfl
@[simp] theorem State.writeVsize_err (v : Word) : (s.writeVsize v).err = s.err := rfl
@[simp] theorem State.writeVsize_lvvalid (v : Word) : (s.writeVsize v).lvvalid = false := rfl
@[simp] theorem State.writeVsize_cause (v : Word) : (s.writeVsize v).cause = s.cause := rfl
@[simp] theorem State.writeVsize_vsize (v : Word) : (s.writeVsize v).vsize = v.extractLsb' 0 9 := rfl
@[simp] theorem State.writeVsize_vcount (v : Word) : (s.writeVsize v).vcount = s.vcount := rfl
@[simp] theorem State.writeVsize_glen (v : Word) : (s.writeVsize v).glen = s.glen := rfl
@[simp] theorem State.writeVsize_src (v : Word) : (s.writeVsize v).src = s.src := rfl
@[simp] theorem State.writeVsize_dst (v : Word) : (s.writeVsize v).dst = s.dst := rfl
@[simp] theorem State.writeVsize_dend (v : Word) : (s.writeVsize v).dend = s.dend := rfl
@[simp] theorem State.writeVsize_result (v : Word) : (s.writeVsize v).result = s.result := rfl
@[simp] theorem State.writeVsize_rst (v : Word) : (s.writeVsize v).rst = s.rst := rfl
@[simp] theorem State.writeVsize_mem (v : Word) : (s.writeVsize v).mem = s.mem := rfl
@[simp] theorem State.writeVsize_script (v : Word) : (s.writeVsize v).script = s.script := rfl
@[simp] theorem State.writeVsize_rdata (v : Word) : (s.writeVsize v).rdata = s.rdata := rfl
@[simp] theorem State.writeVsize_mdata (v : Word) : (s.writeVsize v).mdata = s.mdata := rfl
@[simp] theorem State.writeVsize_reader (v : Word) : (s.writeVsize v).reader = s.reader := rfl
@[simp] theorem State.writeVsize_call (v : Word) : (s.writeVsize v).call = s.call := rfl
@[simp] theorem State.writeVsize_callResult (v : Word) : (s.writeVsize v).callResult = s.callResult := rfl
@[simp] theorem State.writeVsize_draws (v : Word) : (s.writeVsize v).draws = s.draws := rfl

@[simp] theorem State.regRead_cfg (off : WordOff) : (regRead off s).cfg = s.cfg := rfl
@[simp] theorem State.regRead_lv (off : WordOff) : (regRead off s).lv = s.lv := rfl
@[simp] theorem State.regRead_db (off : WordOff) : (regRead off s).db = s.db := rfl
@[simp] theorem State.regRead_inFlight (off : WordOff) : (regRead off s).inFlight = s.inFlight := rfl
@[simp] theorem State.regRead_done (off : WordOff) : (regRead off s).done = s.done := rfl
@[simp] theorem State.regRead_fail (off : WordOff) : (regRead off s).fail = s.fail := rfl
@[simp] theorem State.regRead_err (off : WordOff) : (regRead off s).err = s.err := rfl
@[simp] theorem State.regRead_lvvalid (off : WordOff) : (regRead off s).lvvalid = s.lvvalid := rfl
@[simp] theorem State.regRead_cause (off : WordOff) : (regRead off s).cause = s.cause := rfl
@[simp] theorem State.regRead_vsize (off : WordOff) : (regRead off s).vsize = s.vsize := rfl
@[simp] theorem State.regRead_vcount (off : WordOff) : (regRead off s).vcount = s.vcount := rfl
@[simp] theorem State.regRead_glen (off : WordOff) : (regRead off s).glen = s.glen := rfl
@[simp] theorem State.regRead_src (off : WordOff) : (regRead off s).src = s.src := rfl
@[simp] theorem State.regRead_dst (off : WordOff) : (regRead off s).dst = s.dst := rfl
@[simp] theorem State.regRead_dend (off : WordOff) : (regRead off s).dend = s.dend := rfl
@[simp] theorem State.regRead_result (off : WordOff) : (regRead off s).result = s.result := rfl
@[simp] theorem State.regRead_rst (off : WordOff) : (regRead off s).rst = s.rst := rfl
@[simp] theorem State.regRead_mem (off : WordOff) : (regRead off s).mem = s.mem := rfl
@[simp] theorem State.regRead_script (off : WordOff) : (regRead off s).script = s.script := rfl
@[simp] theorem State.regRead_rdata (off : WordOff) : (regRead off s).rdata = s.readValue off := rfl
@[simp] theorem State.regRead_mdata (off : WordOff) : (regRead off s).mdata = s.mdata := rfl
@[simp] theorem State.regRead_reader (off : WordOff) : (regRead off s).reader = s.reader := rfl
@[simp] theorem State.regRead_call (off : WordOff) : (regRead off s).call = s.call := rfl
@[simp] theorem State.regRead_callResult (off : WordOff) : (regRead off s).callResult = s.callResult := rfl
@[simp] theorem State.regRead_draws (off : WordOff) : (regRead off s).draws = s.draws + 4 := rfl

@[simp] theorem State.returnFromCall_cfg (n : Nat) : (s.returnFromCall n).cfg = s.cfg := rfl
@[simp] theorem State.returnFromCall_lv (n : Nat) : (s.returnFromCall n).lv = s.lv := rfl
@[simp] theorem State.returnFromCall_db (n : Nat) : (s.returnFromCall n).db = s.db := rfl
@[simp] theorem State.returnFromCall_inFlight (n : Nat) : (s.returnFromCall n).inFlight = s.inFlight := rfl
@[simp] theorem State.returnFromCall_done (n : Nat) : (s.returnFromCall n).done = s.done := rfl
@[simp] theorem State.returnFromCall_fail (n : Nat) : (s.returnFromCall n).fail = s.fail := rfl
@[simp] theorem State.returnFromCall_err (n : Nat) : (s.returnFromCall n).err = s.err := rfl
@[simp] theorem State.returnFromCall_lvvalid (n : Nat) : (s.returnFromCall n).lvvalid = s.lvvalid := rfl
@[simp] theorem State.returnFromCall_cause (n : Nat) : (s.returnFromCall n).cause = s.cause := rfl
@[simp] theorem State.returnFromCall_vsize (n : Nat) : (s.returnFromCall n).vsize = s.vsize := rfl
@[simp] theorem State.returnFromCall_vcount (n : Nat) : (s.returnFromCall n).vcount = s.vcount := rfl
@[simp] theorem State.returnFromCall_glen (n : Nat) : (s.returnFromCall n).glen = s.glen := rfl
@[simp] theorem State.returnFromCall_src (n : Nat) : (s.returnFromCall n).src = s.src := rfl
@[simp] theorem State.returnFromCall_dst (n : Nat) : (s.returnFromCall n).dst = s.dst := rfl
@[simp] theorem State.returnFromCall_dend (n : Nat) : (s.returnFromCall n).dend = s.dend := rfl
@[simp] theorem State.returnFromCall_result (n : Nat) : (s.returnFromCall n).result = s.result := rfl
@[simp] theorem State.returnFromCall_rst (n : Nat) : (s.returnFromCall n).rst = s.rst := rfl
@[simp] theorem State.returnFromCall_mem (n : Nat) : (s.returnFromCall n).mem = s.mem := rfl
@[simp] theorem State.returnFromCall_script (n : Nat) : (s.returnFromCall n).script = abandonCall s.script := rfl
@[simp] theorem State.returnFromCall_rdata (n : Nat) : (s.returnFromCall n).rdata = s.rdata := rfl
@[simp] theorem State.returnFromCall_mdata (n : Nat) : (s.returnFromCall n).mdata = s.mdata := rfl
@[simp] theorem State.returnFromCall_reader (n : Nat) : (s.returnFromCall n).reader = s.reader := rfl
@[simp] theorem State.returnFromCall_call (n : Nat) : (s.returnFromCall n).call = s.call := rfl
@[simp] theorem State.returnFromCall_callResult (n : Nat) : (s.returnFromCall n).callResult = .returned n := rfl
@[simp] theorem State.returnFromCall_draws (n : Nat) : (s.returnFromCall n).draws = s.draws := rfl

end Sys2Proof.Machine
end

