-- ==== Sys2Proof/Laws/Ops.lean ====
section
/-! SUPPORT. What the operations over memory, the byte files and the parameters do: read after write, the canonical form
kept, an entry after an overwrite, populated runs. -/

namespace Sys2Proof.Machine

namespace Memory

theorem mem_entries {c : Host.Cell} : ∀ {v : List Byte} {a : Nat},
    c ∈ entries a v → a ≤ c.1 ∧ c.1 < a + v.length ∧ c.2 ≠ unlisted
  | [], _, h => by simp [entries] at h
  | b :: v, a, h => by
    simp only [entries] at h
    split at h
    · obtain ⟨h1, h2, h3⟩ := mem_entries h
      exact ⟨by omega, by simp only [List.length_cons]; omega, h3⟩
    · rename_i hb
      rcases List.mem_cons.1 h with rfl | h
      · exact ⟨Nat.le_refl _, by simp, hb⟩
      · obtain ⟨h1, h2, h3⟩ := mem_entries h
        exact ⟨by omega, by simp only [List.length_cons]; omega, h3⟩

theorem entries_rising : ∀ (v : List Byte) (a : Nat), (entries a v).Pairwise (fun c d => c.1 < d.1)
  | [], _ => by simp [entries]
  | b :: v, a => by
    simp only [entries]
    split
    · exact entries_rising v (a + 1)
    · refine List.pairwise_cons.2 ⟨fun d hd => ?_, entries_rising v (a + 1)⟩
      have := mem_entries hd
      simp only
      omega

theorem find_entries (x : Nat) : ∀ (v : List Byte) (a : Nat),
    ((entries a v).find? (fun c => c.1 == x)).elim unlisted (·.2) =
      if a ≤ x ∧ x < a + v.length then v.getD (x - a) 0 else unlisted
  | [], a => by simp [entries]
  | b :: v, a => by
    have ih := find_entries x v (a + 1)
    have hlen : (b :: v).length = v.length + 1 := rfl
    by_cases hx : a = x
    · subst hx
      have hnone : ((entries (a + 1) v).find? (fun c => c.1 == a)).elim unlisted (·.2) = unlisted := by
        rw [ih, if_neg (by omega)]
      simp only [entries]
      split
      · rename_i hb
        rw [hnone, if_pos (by omega)]
        simp [hb]
      · rw [if_pos (by omega)]
        simp
    · have htail : (if a + 1 ≤ x ∧ x < a + 1 + v.length then v.getD (x - (a + 1)) 0 else unlisted) =
          if a ≤ x ∧ x < a + (b :: v).length then (b :: v).getD (x - a) 0 else unlisted := by
        by_cases h : a + 1 ≤ x ∧ x < a + 1 + v.length
        · rw [if_pos h, if_pos (by omega), show x - a = (x - (a + 1)) + 1 by omega]
          simp
        · rw [if_neg h, if_neg (by omega)]
      rw [← htail, ← ih]
      simp only [entries]
      split
      · rfl
      · simp [hx]

theorem read_eq_elim (m : Memory) (x : Nat) :
    m.read x = (m.find? (fun c => c.1 == x)).elim unlisted (·.2) := by
  unfold read
  cases m.find? (fun c => c.1 == x) <;> rfl

/-- Read after write: the byte written inside the bytes stored, the byte before elsewhere (R53, R54). -/
theorem read_write (m : Memory) (a : Nat) (v : List Byte) (x : Nat) :
    (m.write a v).read x = if a ≤ x ∧ x < a + v.length then v.getD (x - a) 0 else m.read x := by
  have hfind : ∀ (l : Memory) (q : Host.Cell → Bool), (∀ c ∈ l, c.1 = x → q c = true) →
      (l.filter q).find? (fun c => c.1 == x) = l.find? (fun c => c.1 == x) := by
    intro l q hq
    induction l with
    | nil => rfl
    | cons c l ih =>
      have ih := ih fun d hd => hq d (List.mem_cons_of_mem _ hd)
      by_cases hc : c.1 = x
      · have : q c = true := hq c List.mem_cons_self hc
        simp [this, hc]
      · by_cases hqc : q c = true
        · simp [hqc, hc, ih]
        · simp [hqc, hc, ih]
  have hnot : ∀ (l : Memory) (q : Host.Cell → Bool), (∀ c, c.1 = x → q c = false) →
      (l.filter q).find? (fun c => c.1 == x) = none := by
    intro l q hq
    refine List.find?_eq_none.2 fun c hc hx => ?_
    have := hq c (by simpa using hx)
    simp [List.mem_filter, this] at hc
  have he := find_entries x v a
  rw [read_eq_elim, read_eq_elim]
  unfold write
  rw [List.find?_append, List.find?_append]
  by_cases h1 : x < a
  · rw [hfind m (fun c => decide (c.1 < a)) (by intro c _ hc; simp [hc, h1]), if_neg (by omega)]
    rw [hnot m (fun c => decide (a + v.length ≤ c.1)) (by intro c hc; simp; omega)]
    rw [if_neg (by omega)] at he
    cases hm : m.find? (fun c => c.1 == x) with
    | some c => simp
    | none => simpa using he
  · rw [hnot m (fun c => decide (c.1 < a)) (by intro c hc; simp; omega)]
    by_cases h2 : x < a + v.length
    · rw [hnot m (fun c => decide (a + v.length ≤ c.1)) (by intro c hc; simp; omega)]
      rw [if_pos (by omega)] at he ⊢
      simpa using he
    · rw [hfind m (fun c => decide (a + v.length ≤ c.1)) (by intro c _ hc; simp; omega), if_neg (by omega)]
      have : (entries a v).find? (fun c => c.1 == x) = none := by
        refine List.find?_eq_none.2 fun c hc hx => ?_
        have := mem_entries hc
        have : c.1 = x := by simpa using hx
        omega
      simp [this]

theorem mem_write {m : Memory} {a : Nat} {v : List Byte} {c : Host.Cell} (h : c ∈ m.write a v) :
    c ∈ m ∨ (a ≤ c.1 ∧ c.1 < a + v.length) := by
  simp only [write, List.mem_append, List.mem_filter] at h
  rcases h with h | h | h
  · exact .inl h.1
  · exact .inr ⟨(mem_entries h).1, (mem_entries h).2.1⟩
  · exact .inl h.1

/-- Every write keeps the canonical form. -/
theorem wf_write {m : Memory} (h : m.wf) (a : Nat) (v : List Byte) : (m.write a v).wf := by
  refine ⟨?_, fun c hc => ?_⟩
  · simp only [write]
    refine List.pairwise_append.2 ⟨h.1.filter _, List.pairwise_append.2 ⟨entries_rising v a, h.1.filter _, ?_⟩, ?_⟩
    · intro c hc d hd
      have := mem_entries hc
      have : a + v.length ≤ d.1 := by simpa using (List.mem_filter.1 hd).2
      omega
    · intro c hc d hd
      have hca : c.1 < a := by simpa using (List.mem_filter.1 hc).2
      rcases List.mem_append.1 hd with hd | hd
      · have := mem_entries hd
        omega
      · have : a + v.length ≤ d.1 := by simpa using (List.mem_filter.1 hd).2
        omega
  · simp only [write, List.mem_append, List.mem_filter] at hc
    rcases hc with hc | hc | hc
    · exact h.2 c hc.1
    · exact (mem_entries hc).2.2
    · exact h.2 c hc.1

/-- A write of bytes inside the address space lists no address outside it (R50). -/
theorem inSpace_write {m : Memory} {a lim : Nat} {v : List Byte} (h : ∀ c ∈ m, c.1 < lim)
    (hv : v = [] ∨ a + v.length ≤ lim) : ∀ c ∈ m.write a v, c.1 < lim := by
  intro c hc
  rcases mem_write hc with hc | hc
  · exact h c hc
  · rcases hv with rfl | hv
    · simp at hc; omega
    · omega

@[simp] theorem readBytes_length (m : Memory) (a n : Nat) : (m.readBytes a n).length = n := by simp [readBytes]

theorem readBytes_getD (m : Memory) {a n j : Nat} (h : j < n) : (m.readBytes a n).getD j 0 = m.read (a + j) := by
  simp [readBytes, List.getD, h]

/-- Reading what was written gives it back (R53, R54). -/
theorem readBytes_write (m : Memory) (a : Nat) (v : List Byte) : (m.write a v).readBytes a v.length = v := by
  refine List.ext_getElem (by simp) fun j hj hv => ?_
  simp [readBytes, read_write, hv]

/-- A write elsewhere is not seen by a read (R53, R54). -/
theorem readBytes_write_of_apart (m : Memory) {a b n : Nat} {v : List Byte}
    (h : b + n ≤ a ∨ a + v.length ≤ b) : (m.write a v).readBytes b n = m.readBytes b n := by
  refine List.ext_getElem (by simp) fun j hj hv => ?_
  have hjn : j < n := by simpa using hj
  simp only [readBytes, List.getElem_map, List.getElem_range, read_write]
  rw [if_neg (by omega)]

end Memory

@[simp] theorem State.freeBytes_length (s : State) (n : Nat) : (s.freeBytes n).length = n := by
  simp [State.freeBytes]

/-- An entry after an overwrite: the new byte below the length of the bytes, the old entry from there on (R22, R155). -/
theorem ByteFile.entry_overwrite (f : ByteFile) (v : List Byte) (k : Nat) :
    (ByteFile.overwrite f v).entry k =
      if k < min v.length 256 then { val := v.getD k 0, specified := true } else f.entry k := by
  have hf : f.toList.length = 256 := by simp
  have hlist : (ByteFile.overwrite f v).toList =
      (v.take 256).map (fun b => Entry.mk b true) ++ f.toList.drop (v.take 256).length := by
    simp [ByteFile.overwrite]
  unfold ByteFile.entry
  rw [hlist]
  by_cases h : k < min v.length 256
  · have hk : k < v.length := by omega
    have hk' : k < ((v.take 256).map (fun b => Entry.mk b true)).length := by simp; omega
    rw [if_pos h]
    simp only [List.getD]
    rw [List.getElem?_append_left hk']
    have : k < 256 := by omega
    simp [this, hk]
  · rw [if_neg h]
    have hk : ((v.take 256).map (fun b => Entry.mk b true)).length ≤ k := by simp; omega
    simp only [List.getD]
    rw [List.getElem?_append_right hk, List.getElem?_drop]
    congr 2
    simp only [List.length_map] at hk ⊢
    omega

@[simp] theorem ByteFile.entry_unspecified (k : Nat) :
    ByteFile.entry unspecifiedFile k = { val := 0, specified := false } := by
  unfold ByteFile.entry unspecifiedFile
  rw [Vector.toList_replicate]
  simp only [List.getD, List.getElem?_replicate]
  split <;> rfl

@[simp] theorem Entry.seen_mk_true (b : Byte) (d : Nat) : (Entry.mk b true).seen d = b := rfl

/-- A run is covered exactly when each of its addresses is populated (R66), the regions being apart (Config.wf). -/
theorem covers_iff {c : Config} (hc : c.wf) (lo hi : Nat) :
    covers c lo hi = true ↔ ∀ a, lo ≤ a → a < hi → ∃ r ∈ c.populated, r.base ≤ a ∧ a < r.base + r.size := by
  constructor
  · intro h a h1 h2
    simp only [covers, Bool.or_eq_true, decide_eq_true_eq, List.any_eq_true, Bool.and_eq_true] at h
    rcases h with h | ⟨r, hr, h3, h4⟩
    · omega
    · exact ⟨r, hr, by omega, by omega⟩
  · intro h
    simp only [covers, Bool.or_eq_true, decide_eq_true_eq, List.any_eq_true, Bool.and_eq_true]
    by_cases hlo : hi ≤ lo
    · exact .inl hlo
    obtain ⟨r, hr, h1, h2⟩ := h lo (Nat.le_refl _) (by omega)
    refine .inr ⟨r, hr, h1, ?_⟩
    by_contra hbad
    obtain ⟨t, ht, h3, h4⟩ := h (r.base + r.size) (by omega) (by omega)
    have hsep := hc.2.2.2
    rcases List.mem_iff_getElem.1 hr with ⟨i, hi', rfl⟩
    rcases List.mem_iff_getElem.1 ht with ⟨j, hj', rfl⟩
    rcases Nat.lt_trichotomy i j with hij | rfl | hij
    · have := List.pairwise_iff_getElem.1 hsep i j hi' hj' hij
      omega
    · omega
    · have := List.pairwise_iff_getElem.1 hsep j i hj' hi' hij
      omega

/-- A part of a covered run is covered. -/
theorem covers_mono {c : Config} {lo hi lo' hi' : Nat} (h : covers c lo hi = true) (h1 : lo ≤ lo') (h2 : hi' ≤ hi) :
    covers c lo' hi' = true := by
  simp only [covers, Bool.or_eq_true, decide_eq_true_eq, List.any_eq_true, Bool.and_eq_true] at h ⊢
  rcases h with h | ⟨r, hr, h3, h4⟩
  · exact .inl (by omega)
  · exact .inr ⟨r, hr, by omega, by omega⟩

/-- An address register keeps a number below `2^AW` (R29, R30, R31). -/
theorem addrBits_toNat {c : Config} (h : c.aw ≤ 32) (v : Nat) : (addrBits c v).toNat = v % 2 ^ c.aw := by
  have h1 : v % 2 ^ c.aw < 2 ^ c.aw := Nat.mod_lt _ (Nat.two_pow_pos _)
  have h2 : 2 ^ c.aw ≤ 2 ^ 32 := Nat.pow_le_pow_right (by omega) h
  simp only [addrBits, BitVec.toNat_ofNat]
  exact Nat.mod_eq_of_lt (by omega)

theorem firstFailing_eq_none {l : List (Bool × Cause)} : firstFailing l = none ↔ ∀ p ∈ l, p.1 = false := by
  induction l with
  | nil => simp [firstFailing]
  | cons p l ih =>
    obtain ⟨b, c⟩ := p
    cases b <;> simp [firstFailing, ih]

end Sys2Proof.Machine
end

