-- ==== Sys2Proof/Laws/Control.lean ====
section
/-! SUPPORT. What acceptance, the checks and the host's access guard can answer; cited instead of unfolding them. -/

namespace Sys2Proof.Machine

theorem ignoresCommand_of_ready {s : State} (h : s.ready) (c : Word) : s.ignoresCommand c = false := by
  obtain ⟨h1, h2, h3, h4⟩ := h
  simp [State.ignoresCommand, State.busy, h1, h2, h3, h4]

/-- While `rst = 1` every command is ignored (R215). -/
theorem ignoresCommand_of_rst {s : State} (h : s.rst = true) (c : Word) : s.ignoresCommand c = true := by
  simp [State.ignoresCommand, h]

theorem ready_of_not_ignored {s : State} {c : Word} (h : s.ignoresCommand c = false) (hc : c ≠ 0x00000001) :
    s.ready := by
  simp only [State.ignoresCommand, State.busy, Bool.or_eq_false_iff, Bool.and_eq_false_iff] at h
  obtain ⟨⟨h1, h2⟩, h3⟩ := h
  refine ⟨h1, by simpa using h2, ?_, ?_⟩ <;> rcases h3 with h3 | h3 <;> simp_all

/-- A write to `CMD` that answers a next state was ignored, or was accepted, run and completed (R165). -/
theorem command_next {c : Word} {op : State → Result} {s t : State} (h : command c op s = .next t) :
    (s.ignoresCommand c = true ∧ t = s) ∨
      (s.ignoresCommand c = false ∧ ∃ u, op (s.accept c) = .next u ∧ t = u.complete) := by
  unfold command at h
  split at h
  · cases h; exact .inl ⟨by assumption, rfl⟩
  · split at h
    · rename_i hi _ u hu
      cases h
      exact .inr ⟨by simpa using hi, u, hu, rfl⟩
    · cases h
    · cases h

theorem command_of_ignored {c : Word} {op : State → Result} {s : State} (h : s.ignoresCommand c = true) :
    command c op s = .next s := by simp [command, h]

theorem command_of_accepted {c : Word} {op : State → Result} {s u : State} (h : s.ignoresCommand c = false)
    (hu : op (s.accept c) = .next u) : command c op s = .next u.complete := by simp [command, h, hu]

/-- The checks of a command: the first that fails is raised, else the premise holds and the operation runs (R66, R199). -/
theorem checked_next {i : Instr} {op : State → Result} {s t : State} (h : checked i op s = .next t) :
    (∃ c, firstError i s = some c ∧ t = s.raiseErr c) ∨
      (firstError i s = none ∧ footprintPopulated i s = true ∧ op s = .next t) := by
  unfold checked at h
  split at h
  · rename_i c hc; cases h; exact .inl ⟨c, hc, rfl⟩
  · rename_i hc
    split at h
    · rename_i hp; exact .inr ⟨hc, hp, h⟩
    · cases h

theorem checked_of_error {i : Instr} {op : State → Result} {s : State} {c : Cause} (h : firstError i s = some c) :
    checked i op s = .next (s.raiseErr c) := by simp [checked, h]

theorem checked_of_ok {i : Instr} {op : State → Result} {s : State} (h : firstError i s = none)
    (hp : footprintPopulated i s = true) : checked i op s = op s := by simp [checked, h, hp]

/-- Acceptance changes nothing the checks look at. -/
@[simp] theorem firstError_accept (i : Instr) (s : State) (c : Word) : firstError i (s.accept c) = firstError i s := by
  cases i <;> rfl

@[simp] theorem footprintPopulated_accept (i : Instr) (s : State) (c : Word) :
    footprintPopulated i (s.accept c) = footprintPopulated i s := by
  cases i <;> rfl

/-- An access that answers a next state lies in the address space, is populated and keeps the hand-off rule (R50, R60,
R66). -/
theorem hostAccess_next {s t : State} {a n : Nat} {w : Bool} {go : Result} (h : hostAccess s a n w go = .next t) :
    go = .next t ∧ (n = 0 ∨ a + n ≤ 2 ^ s.cfg.aw) ∧ covers s.cfg a (a + n) = true ∧ s.handOffKept a n w = true := by
  unfold hostAccess at h
  split at h
  · cases h
  · split at h
    · cases h
    · split at h
      · cases h
      · rename_i h1 h2 h3
        exact ⟨h, by omega, by simpa using h2, by simpa using h3⟩

theorem hostAccess_of_ok {s : State} {a n : Nat} {w : Bool} {go : Result} (h1 : n = 0 ∨ a + n ≤ 2 ^ s.cfg.aw)
    (h2 : covers s.cfg a (a + n) = true) (h3 : s.handOffKept a n w = true) : hostAccess s a n w go = go := by
  have : ¬(0 < n ∧ 2 ^ s.cfg.aw < a + n) := by omega
  simp [hostAccess, this, h2, h3]

/-- With no command in flight every access keeps the hand-off rule (R60). -/
theorem handOffKept_of_idle {s : State} (h : s.inFlight = none) (a n : Nat) (w : Bool) : s.handOffKept a n w = true := by
  simp [State.handOffKept, State.commandInFlight, h]

/-- CLR's word is the word of no other command (R71, R168). -/
theorem commandWord_ne_clr {i : Instr} (hi : isCommand i = true) (h : i ≠ .clr) : commandWord i ≠ 0x00000001 := by
  intro hw
  cases i <;> first
    | (revert hi; decide)
    | exact h rfl
    | (revert hw; decide)
    | (have := op_commandWord_zz8 ‹Byte›; rw [hw] at this; revert this; decide)
    | (rename_i a b; have := op_commandWord_dz8 a b; rw [hw] at this; revert this; decide)

/-- The machine's step is the head of the script, or a completion when the script is empty. -/
theorem step_of_script {s : State} {a : HostAction} {rest : List HostAction} (h : s.script = a :: rest) :
    step s = perform a { s with script := rest } := by simp [step, transition, h]

theorem step_of_empty {s : State} (h : s.script = []) : step s = completeInFlight s := by simp [step, transition, h]

/-- What a register write other than a command changes (R26 to R31, R35, R36, R169). -/
theorem regWrite_cases (off : WordOff) (v : Word) (s : State) :
    regWrite off v s = s ∨ (s.rst = false ∧ s.inFlight = none ∧
      (regWrite off v s = s.writeVsize v ∨ regWrite off v s = { s with vcount := v.extractLsb' 0 9 } ∨
        regWrite off v s = { s with glen := v.extractLsb' 0 9 } ∨
        regWrite off v s = { s with src := addrBits s.cfg v.toNat } ∨
        regWrite off v s = { s with dst := addrBits s.cfg v.toNat } ∨
        regWrite off v s = { s with dend := addrBits s.cfg v.toNat })) := by
  unfold regWrite
  split
  · exact .inl rfl
  · rename_i h
    simp only [State.busy, Bool.or_eq_true, not_or, Bool.not_eq_true, Option.isSome_eq_false_iff,
      Option.isNone_iff_eq_none] at h
    obtain ⟨h1, h2⟩ := h
    repeat' split
    all_goals simp [h1, h2]

end Sys2Proof.Machine
end

