-- ==== Sys2Proof/Laws/Commands.lean ====
section
/-! SUPPORT. What the operations of the commands and the reader can answer; cited instead of unfolding them. -/

namespace Sys2Proof.Machine

/-- The PACK operation succeeds with the payload, or ends by `Fail`; `DB` takes the group in both (R22, R117). -/
theorem packOperation_next {b : Width} {s t : State} (h : packOperation b s = .next t) :
    (∃ out, packGroup (s.sourceBytes groupSize) b s.capacity = some out ∧
        t = { s with db := ByteFile.overwrite s.db (s.sourceBytes groupSize) }.produce out) ∨
      (packGroup (s.sourceBytes groupSize) b s.capacity = none ∧
        ((packedSize (s.sourceBytes groupSize) b = none ∧
          t = { s with db := ByteFile.overwrite s.db (s.sourceBytes groupSize) }.spoilWindow.raiseFail .inapplicable) ∨
        ((packedSize (s.sourceBytes groupSize) b).isSome = true ∧
          t = { s with db := ByteFile.overwrite s.db (s.sourceBytes groupSize) }.spoilWindow.raiseFail .capacity))) := by
  unfold packOperation at h
  simp only at h
  split at h
  · rename_i out ho; cases h; exact .inl ⟨out, ho, rfl⟩
  · rename_i ho
    split at h
    · rename_i hs; cases h; exact .inr ⟨ho, .inl ⟨hs, rfl⟩⟩
    · rename_i n hs; cases h; exact .inr ⟨ho, .inr ⟨by simp [hs], rfl⟩⟩

/-- The ENCG operation succeeds with the bytes of the channel, or ends by `Fail(CAPACITY)` (R142). -/
theorem encgOperation_next {s t : State} (h : encgOperation s = .next t) :
    (∃ out, encodeGroups (s.sourceBytes s.glen.toNat) s.capacity = some out ∧
        t = { s with db := ByteFile.overwrite s.db (s.sourceBytes s.glen.toNat) }.produce out) ∨
      (encodeGroups (s.sourceBytes s.glen.toNat) s.capacity = none ∧
        t = { s with db := unspecifiedFile }.spoilWindow.raiseFail .capacity) := by
  unfold encgOperation at h
  simp only at h
  split at h
  · rename_i out ho; cases h; exact .inl ⟨out, ho, rfl⟩
  · rename_i ho; cases h; exact .inr ⟨ho, rfl⟩

/-- The ENCB operation succeeds with the bytes of the block and the new predictor, or ends by `Fail(CAPACITY)` (R158). -/
theorem encbOperation_next {s t : State} (h : encbOperation s = .next t) :
    (∃ out lv', encodeBlock s.records s.vsize.toNat (ByteFile.bytes s.lv 256) s.capacity = some (out, lv') ∧
        t = { s with
          lv := ByteFile.overwrite s.lv (lv'.take s.vsize.toNat)
          db := ByteFile.overwrite s.db
            (channelDeltas s.records (s.vsize.toNat - 1)
              ((ByteFile.bytes s.lv 256).getD (s.vsize.toNat - 1) 0)) }.produce out) ∨
      (encodeBlock s.records s.vsize.toNat (ByteFile.bytes s.lv 256) s.capacity = none ∧
        t = { s with db := unspecifiedFile }.spoilWindow.raiseFail .capacity) := by
  unfold encbOperation at h
  simp only at h
  split at h
  · rename_i out lv' ho; cases h; exact .inl ⟨out, lv', ho, rfl⟩
  · rename_i ho; cases h; exact .inr ⟨ho, rfl⟩

/-- The reader's step changes the reader and nothing else (R144). -/
theorem takeGroup_next {b : Width} {s t : State} (h : takeGroup b s = .next t) :
    t = { s with reader :=
      { pos := s.reader.pos + (unpackGroup (s.mem.readBytes s.reader.pos decodeLimit) b).2
        values := s.reader.values ++ (unpackGroup (s.mem.readBytes s.reader.pos decodeLimit) b).1 } } := by
  unfold takeGroup at h
  have := (hostAccess_next h).1
  cases this
  rfl

/-- The format byte is written, or the stream call returns 0 (R176). -/
theorem execFormatV1_next {s t : State} (h : execFormatV1 s = .next t) :
    (s.call.cap < 1 + s.call.vs ∧ t = s.returnFromCall 0) ∨
      (1 + s.call.vs ≤ s.call.cap ∧ t = { s with mem := s.mem.write s.call.out [formatByte] }) := by
  unfold execFormatV1 at h
  split at h
  · rename_i hc; cases h; exact .inl ⟨hc, rfl⟩
  · rename_i hc
    have := (hostAccess_next h).1
    cases this
    exact .inr ⟨by omega, rfl⟩

/-- A completion runs the word in flight as a write to `CMD` of an idle block (R165). -/
theorem completeInFlight_of_some {s : State} {c : Word} (h : s.inFlight = some c) :
    completeInFlight s = writeCommand c { s with inFlight := none } := by simp [completeInFlight, h]

theorem completeInFlight_of_none {s : State} (h : s.inFlight = none) : completeInFlight s = .next s := by
  simp [completeInFlight, h]

/-- A reset of the block: with a window in flight its bytes take free values, else memory stays (R215, R216). -/
theorem resetBlock_next {s t : State} (h : resetBlock s = .next t) :
    (s.windowInFlight = true ∧ t = { s.spoilWindow.blockReset with rst := true }) ∨
      (s.windowInFlight = false ∧ t = { s.blockReset with rst := true }) := by
  unfold resetBlock at h
  split at h
  · rename_i hw
    split at h
    · cases h; exact .inl ⟨hw, rfl⟩
    · cases h
  · rename_i hw; cases h; exact .inr ⟨by simpa using hw, rfl⟩

end Sys2Proof.Machine
end

