-- ==== Sys2Proof/Laws/PerInstr.lean ====
section
/-! SUPPORT. Per instruction: its encoding lies in its row of the opcode table (30_encoding.md R71, R80, R87). -/

namespace Sys2Proof.Laws.TableRow

/-- Match and mask of an instruction's row of spec/opcode_table.json. -/
def matchMask : Instr → Word × Word
  | .nop => (0x00000000, 0xFFFFFFFF)
  | .clr => (0x00000001, 0xFFFFFFFF)
  | .seed => (0x00000002, 0xFFFFFFFF)
  | .zz8 _ => (0x00000003, 0xFFFF00FF)
  | .dz8 _ _ => (0x00000004, 0xFF0000FF)
  | .pack1 => (0x00000005, 0xFFFFFFFF)
  | .pack2 => (0x00000015, 0xFFFFFFFF)
  | .pack4 => (0x00000025, 0xFFFFFFFF)
  | .pack8 => (0x00000035, 0xFFFFFFFF)
  | .encg => (0x00000006, 0xFFFFFFFF)
  | .encb => (0x00000007, 0xFFFFFFFF)
  | .width1 => (0x0, 0x3)
  | .width2 => (0x1, 0x3)
  | .width4 => (0x2, 0x3)
  | .width8 => (0x3, 0x3)
  | .formatV1 => (0xA1, 0xFF)

/-- "the word `c` selects the row when `(c and mask) = match`" (R71). -/
def Statement (i : Instr) : Prop := commandWord i &&& (matchMask i).2 = (matchMask i).1

theorem nop : Statement .nop := by unfold Statement; decide
theorem clr : Statement .clr := by unfold Statement; decide
theorem seed : Statement .seed := by unfold Statement; decide

theorem zz8 (a : Byte) : Statement (.zz8 a) := by
  unfold Statement commandWord wordOf cmdFields matchMask
  ext i hi
  simp only [BitVec.getElem_and, BitVec.getElem_append]
  interval_cases i <;> simp

theorem dz8 (a b : Byte) : Statement (.dz8 a b) := by
  unfold Statement commandWord wordOf cmdFields matchMask
  ext i hi
  simp only [BitVec.getElem_and, BitVec.getElem_append]
  interval_cases i <;> simp

theorem pack1 : Statement .pack1 := by unfold Statement; decide
theorem pack2 : Statement .pack2 := by unfold Statement; decide
theorem pack4 : Statement .pack4 := by unfold Statement; decide
theorem pack8 : Statement .pack8 := by unfold Statement; decide
theorem encg : Statement .encg := by unfold Statement; decide
theorem encb : Statement .encb := by unfold Statement; decide
theorem width1 : Statement .width1 := by unfold Statement; decide
theorem width2 : Statement .width2 := by unfold Statement; decide
theorem width4 : Statement .width4 := by unfold Statement; decide
theorem width8 : Statement .width8 := by unfold Statement; decide
theorem formatV1 : Statement .formatV1 := by unfold Statement; decide

end Sys2Proof.Laws.TableRow
end

