-- ==== Sys2Proof/Tests/Slice0.lean ====
section
/-! SUPPORT. Own tests: well-formedness smoke, words written out from the spec's encodings, vectors of 95_test_vectors.md on
single steps, and for every obligation with hypotheses a witness that meets them. -/

namespace Sys2Proof.Tests.Slice0

open Sys2Proof Sys2Proof.Machine

/-! ## Well-formedness: each check refuses an ill-formed term -/

theorem test_wf_fields_good : (cmdFields 4 0 0xFF 0x02).wf := by decide
theorem test_wf_fields_op : ¬(cmdFields 8 0 0 0).wf := by decide
theorem test_wf_fields_zero6 : ¬({ cmdFields 5 0 0 0 with zero6 := 1 } : CmdFields).wf := by decide
theorem test_wf_fields_zero24 : ¬({ cmdFields 4 0 0 0 with zero24 := 1 } : CmdFields).wf := by decide
theorem test_wf_fields_w : ¬(cmdFields 3 1 0 0).wf := by decide
theorem test_wf_fields_a : ¬(cmdFields 2 0 1 0).wf := by decide
theorem test_wf_fields_b : ¬(cmdFields 3 0 0 1).wf := by decide

/-- Parameters of the smallest space. -/
def cfgOf (aw : Nat) (rs : List Region) : Config := { aw := aw, regBase := 0, populated := rs }

theorem test_wf_config_good : (cfgOf 8 [⟨0, 4⟩, ⟨16, 240⟩]).wf := by decide
theorem test_wf_config_small : ¬(cfgOf 7 []).wf := by decide
theorem test_wf_config_large : ¬(cfgOf 33 []).wf := by decide
theorem test_wf_config_empty_region : ¬(cfgOf 8 [⟨0, 0⟩]).wf := by decide
theorem test_wf_config_outside : ¬(cfgOf 8 [⟨16, 241⟩]).wf := by decide
theorem test_wf_config_touching : ¬(cfgOf 8 [⟨0, 4⟩, ⟨4, 4⟩]).wf := by decide
theorem test_wf_instr (a b : Byte) : (Instr.dz8 a b).wf := by decide +revert

/-! ## Decoding: words written out from 30_encoding.md R70, R71, R80, R87 -/

/-- `zero24 b a zero6 w op`. -/
theorem test_decode_nop : decodeCommand 0b00000000_00000000_00000000_00_00_0000#32 = .ok .nop := by decide
theorem test_decode_clr : decodeCommand 0b00000000_00000000_00000000_00_00_0001#32 = .ok .clr := by decide
theorem test_decode_seed : decodeCommand 0b00000000_00000000_00000000_00_00_0010#32 = .ok .seed := by decide
theorem test_decode_zz8 : decodeCommand 0b00000000_00000000_11111101_00_00_0011#32 = .ok (.zz8 0xFD) := by decide
theorem test_decode_dz8 : decodeCommand 0b00000000_00000010_11111111_00_00_0100#32 = .ok (.dz8 0xFF 0x02) := by decide
theorem test_decode_pack1 : decodeCommand 0b00000000_00000000_00000000_00_00_0101#32 = .ok .pack1 := by decide
theorem test_decode_pack2 : decodeCommand 0b00000000_00000000_00000000_00_01_0101#32 = .ok .pack2 := by decide
theorem test_decode_pack4 : decodeCommand 0b00000000_00000000_00000000_00_10_0101#32 = .ok .pack4 := by decide
theorem test_decode_pack8 : decodeCommand 0b00000000_00000000_00000000_00_11_0101#32 = .ok .pack8 := by decide
theorem test_decode_encg : decodeCommand 0b00000000_00000000_00000000_00_00_0110#32 = .ok .encg := by decide
theorem test_decode_encb : decodeCommand 0b00000000_00000000_00000000_00_00_0111#32 = .ok .encb := by decide
theorem test_decode_width1 : decodeTableWord 8 0b00 = some .width1 := by decide
theorem test_decode_width2 : decodeTableWord 8 0b01 = some .width2 := by decide
theorem test_decode_width4 : decodeTableWord 8 0b10 = some .width4 := by decide
theorem test_decode_width8 : decodeTableWord 8 0b11 = some .width8 := by decide
theorem test_decode_format : decodeTableWord 8 0b1010_0001 = some .formatV1 := by decide
theorem test_decode_format_reserved : decodeTableWord 8 0b1010_0010 = none := by decide
theorem test_decode_clr_stray : decodeCommand 0x00000101 = .error .reservedBits := by decide
theorem test_decode_op9 : decodeCommand 0x00000009 = .error .reservedOpcode := by decide

/-! ## Small states -/

/-- Group G1 of 95_test_vectors.md at 0x1000: `00 02 02 05 00 x12`. -/
def memG1 : Memory := Memory.write [] 0x1000 [0x00, 0x02, 0x02, 0x05]

/-- A block with the group G1 at `SRC` and the window `[0x2000, dend)`. -/
def withG1 (dend : Word) : State :=
  { State.reset with src := 0x1000, dst := 0x2000, dend := dend, mem := memG1, glen := 16 }

/-- The records of S7 at 0x1000. -/
def memS7 : Memory :=
  Memory.write [] 0x1000 [0, 0, 0, 0, 1, 0, 0, 0, 2, 0, 0, 0, 0xFF, 0, 0, 0]

/-- The block of vector V-ENCB1 with the window `[0x2000, dend)`, seeded from record 0. -/
def withS7 (dend : Word) : State :=
  { State.reset with
    src := 0x1000, dst := 0x2000, dend := dend, mem := memS7, vsize := 4, vcount := 4, lvvalid := true
    lv := ByteFile.overwrite unspecifiedFile [0, 0, 0, 0] }

/-- A block whose last command ended by `Fail(CAPACITY)` after a SEED: `STATUS = 0x116`. -/
def failed : State := { withS7 0x2020 with fail := true, cause := .capacity, done := true }

/-- What a next state shows; none at a stop. -/
def shows {α : Type} (r : Result) (f : State → α) : Option α :=
  match r with
  | .next t => some (f t)
  | .fault _ => none
  | .refused _ => none

/-- `STATUS`, `RESULT` and `DST` of a next state. -/
def outcome (r : Result) : Option (Word × Word × Word) := shows r fun t => (t.statusWord, t.result, t.dst)

/-! ## One step each, the expected values from 95_test_vectors.md and the rules' examples -/

theorem test_nop : outcome (step ({ State.reset with done := true, result := 5 }.withFetchWord 32 0)) = some (0x002, 0, 0) := by
  decide
theorem test_nop_refused : outcome (exec .nop failed) = some (0x116, 0, 0x2000) := by decide
theorem test_clr : outcome (exec .clr failed) = some (0x012, 0, 0x2000) := by decide
theorem test_clr_stray_bit : outcome (writeCommand 0x101 { failed with fail := false, cause := .none }) = some (0x81A, 0, 0x2000) := by
  decide
theorem test_zz8_minus3 : outcome (exec (.zz8 0xFD) State.reset) = some (0x002, 5, 0) := by decide
theorem test_zz8_plus64 : outcome (exec (.zz8 0x40) State.reset) = some (0x002, 0x80, 0) := by decide
theorem test_dz8_wraps : outcome (exec (.dz8 0x00 0x01) State.reset) = some (0x002, 1, 0) := by decide
theorem test_dz8_order : outcome (exec (.dz8 0x0F 0x12) State.reset) = some (0x002, 5, 0) := by decide
theorem test_pack1_zero : outcome (exec .pack1 { State.reset with src := 0x1000, dst := 0x2000, dend := 0x2000 }) = some (0x002, 0, 0x2000) := by
  decide
theorem test_pack1_inapplicable : outcome (exec .pack1 (withG1 0x2100)) = some (0x206, 0, 0x2000) := by decide
theorem test_pack2_exact : shows (exec .pack2 (withG1 0x2005)) (fun t => (t.statusWord, t.dst, Memory.readBytes t.mem 0x2000 5)) =
    some (0x002, 0x2005, [0x2B, 0x00, 0x00, 0x00, 0x05]) := by decide
theorem test_pack2_short : outcome (exec .pack2 (withG1 0x2004)) = some (0x106, 0, 0x2000) := by decide
theorem test_pack4 : shows (exec .pack4 (withG1 0x2008)) (fun t => Memory.readBytes t.mem 0x2000 8) =
    some [0x02, 0x25, 0x00, 0x00, 0x00, 0x00, 0x00, 0x00] := by decide
theorem test_pack4_db : shows (exec .pack4 (withG1 0x2008)) (fun t => t.readValue offDbw) = some 0x05020200 := by decide
theorem test_pack8 : shows (exec .pack8 (withG1 0x2010)) (fun t => Memory.readBytes t.mem 0x2000 4) =
    some [0x00, 0x02, 0x02, 0x05] := by decide
theorem test_pack8_inverted_window : outcome (exec .pack8 { withG1 0x2000 with dst := 0x2010 }) = some (0xC0A, 0, 0x2010) := by
  decide
theorem test_encg : outcome (exec .encg (withG1 0x2019)) = some (0x002, 6, 0x2006) := by decide
theorem test_encg_short : outcome (exec .encg (withG1 0x2018)) = some (0x106, 0, 0x2000) := by decide
theorem test_encb : shows (exec .encb (withS7 0x2021)) (fun t => (t.statusWord, t.result, t.readValue offLvw)) =
    some (0x012, 9, 0x000000FF) := by decide
theorem test_encb_short : outcome (exec .encb (withS7 0x2020)) = some (0x116, 0, 0x2000) := by decide
theorem test_seed : shows (exec .seed { State.reset with vsize := 4, src := 0x1000, mem := Memory.write [] 0x1000 [0x0A, 0x0B, 0x0C, 0x0D] })
    (fun t => (t.statusWord, t.readValue offLvw)) = some (0x012, 0x0D0C0B0A) := by decide
theorem test_seed_vsize6 : outcome (exec .seed { State.reset with vsize := 6 }) = some (0x90A, 0, 0) := by decide

/-- A reader at the payload of G2 at width 2: `C6 F0 00 03 03 03 FF 03` (S2). -/
def atPayloadG2 : State :=
  { State.reset with mem := Memory.write [] 0x10 [0xC6, 0xF0, 0x00, 0x03, 0x03, 0x03, 0xFF, 0x03], reader := ⟨0x10, []⟩ }

theorem test_width1 : shows (exec .width1 atPayloadG2) (fun t => t.reader) = some ⟨0x10, List.replicate 16 0⟩ := by decide
theorem test_width2 : shows (exec .width2 atPayloadG2) (fun t => t.reader) =
    some ⟨0x18, [3, 0, 1, 2, 3, 0xFF, 0, 0, 0, 0, 0, 0, 0, 0, 0, 3]⟩ := by decide

/-- G6 at width 4: `EF F2 34 00 00 00 00 00 0F 10`. -/
theorem test_width4 : shows (exec .width4 { State.reset with mem := Memory.write [] 0 [0xEF, 0xF2, 0x34, 0, 0, 0, 0, 0, 0x0F, 0x10] })
    (fun t => t.reader) = some ⟨10, [0x0E, 0x0F, 0x10, 2, 3, 4, 0, 0, 0, 0, 0, 0, 0, 0, 0, 0]⟩ := by decide
theorem test_width8 : shows (exec .width8 { State.reset with mem := memG1, reader := ⟨0x1000, [7]⟩ }) (fun t => t.reader) =
    some ⟨0x1010, [7, 0, 2, 2, 5, 0, 0, 0, 0, 0, 0, 0, 0, 0, 0, 0, 0]⟩ := by decide

/-- A stream call of one record of 4 bytes with the capacity `cap` (V-STREAM1). -/
def calling (cap : Nat) : State := { State.reset with call := ⟨0x1000, 0x2000, cap, 4, 1⟩ }

theorem test_format : shows (exec .formatV1 (calling 5)) (fun t => t.mem) = some [(0x2000, 0xA1)] := by decide
theorem test_format_short : shows (exec .formatV1 (calling 4)) (fun t => (t.mem, t.callResult)) = some ([], .returned 0) := by
  decide

/-! ## The pure functions (S7, V-ENCG2, T2, T15, T16) -/

theorem test_stream_S7 : encodeStream [[0, 0, 0, 0], [1, 0, 0, 0], [2, 0, 0, 0], [0xFF, 0, 0, 0]] 4 42 =
    some ([0xA1, 0x01, 0x2B, 0, 0, 0, 0x05, 0, 0, 0] ++ List.replicate 32 0) := by decide
theorem test_stream_S7_short : encodeStream [[0, 0, 0, 0], [1, 0, 0, 0], [2, 0, 0, 0], [0xFF, 0, 0, 0]] 4 41 = none := by decide
theorem test_select_T2 : selectWidth (List.replicate 12 0x0F ++ List.replicate 4 0) = .w8 := by decide
theorem test_select_T15 : selectWidth (List.replicate 7 0x0F ++ List.replicate 5 3 ++ List.replicate 4 0) = .w4 := by decide
theorem test_select_T16 : selectWidth (List.replicate 7 0x0F ++ List.replicate 4 3 ++ List.replicate 5 0) = .w2 := by decide
theorem test_header_two_bytes : (encodeGroups (List.replicate 80 0) 26).map (·.length) = some 2 := by decide

/-! ## Witnesses: the hypotheses of each obligation are met -/

theorem witness_EncodeOfDecodedWordIsWord : decodeCommand 0x00FF8004 = .ok (.dz8 0x80 0xFF) := by decide
theorem witness_IllegalWordsRaiseOpcode : State.reset.ready ∧ decodeCommand 0x80000000 = .error .reservedBits := by decide
theorem witness_StepRuns_cmd : ∃ s : State, s.script = .wr offCmd 0x7F03 :: [.wait] ∧ decodeCommand 0x7F03 = .ok (.zz8 0x7F) :=
  ⟨{ State.reset with script := [.wr offCmd 0x7F03, .wait] }, rfl, by decide⟩
theorem witness_StepRuns_tag : ∃ s : State, s.script = .tag 0xA1 :: [] ∧ decodeTag 0xA1 = .ok .formatV1 :=
  ⟨{ State.reset with script := [.tag 0xA1] }, rfl, by decide⟩
theorem witness_StepRuns_slot : ∃ s : State, s.script = .slot 3 :: [] := ⟨{ State.reset with script := [.slot 3] }, rfl⟩
theorem witness_StepRuns_table : decodeTableWord 32 0x35 = some .pack8 := by decide

/-- A block with ENCB in flight. -/
def busyEncb : State := { withS7 0x2021 with inFlight := some 0x7 }

theorem witness_CommandIgnored_busy : busyEncb.inFlight.isSome = true := by decide
theorem witness_CommandIgnored_failed : (failed.fail = true ∨ failed.err = true) ∧ (0x101 : Word) ≠ 0x00000001 := by decide
theorem witness_CommandIgnored_reset : { State.reset with rst := true }.rst = true := by decide
theorem witness_CommandCompletes_clr : failed.rst = false ∧ failed.inFlight = none ∧
    ((failed.fail = false ∧ failed.err = false) ∨ (0x1 : Word) = 0x00000001) := by decide
theorem witness_CommandCompletes_illegal : State.reset.ready ∧ ∀ i, decodeCommand 0x8 ≠ .ok i :=
  ⟨by decide, fun i h => by rw [show decodeCommand 0x8 = .error .reservedOpcode by decide] at h; cases h⟩
theorem witness_PopulatedCommandCompletes :
    isCommand .encb = true ∧ (withS7 0x2021).ready ∧ footprintPopulated .encb (withS7 0x2021) = true := by decide
theorem witness_NopClearsResult : State.reset.ready ∧ (failed.fail = true ∨ failed.err = true) := by decide
theorem witness_ready : State.reset.ready := by decide

/-- A block that can seed from the top four bytes of its space. -/
def seeding : State := { State.reset with vsize := 4, src := 0xFFFFFFFC }

theorem witness_Seed_loads : seeding.ready ∧ seeding.vsizeLegal = true ∧ seeding.src.toNat + seeding.vsize.toNat ≤ 2 ^ seeding.cfg.aw ∧
    covers seeding.cfg seeding.src.toNat (seeding.src.toNat + seeding.vsize.toNat) = true := by decide
theorem witness_Seed_vsize : { seeding with vsize := 260 }.ready ∧ { seeding with vsize := 260 }.vsizeLegal = false := by decide
theorem witness_Seed_range : { seeding with vsize := 8 }.ready ∧ { seeding with vsize := 8 }.vsizeLegal = true ∧
    2 ^ seeding.cfg.aw < seeding.src.toNat + { seeding with vsize := 8 }.vsize.toNat := by decide
theorem witness_Pack1_zero : { withG1 0x2000 with mem := [] }.ready ∧ { withG1 0x2000 with mem := [] }.placed 16 ∧
    ∀ j, j < 16 → Memory.read [] (0x1000 + j) = 0 := by decide
theorem witness_Pack1_inapplicable : (withG1 0x2000).ready ∧ (withG1 0x2000).placed 16 ∧
    ∃ j, j < 16 ∧ Memory.read (withG1 0x2000).mem ((withG1 0x2000).src.toNat + j) ≠ 0 :=
  ⟨by decide, by decide, 3, by decide, by decide⟩
theorem witness_PackWritesPayload_pack2 : (withG1 0x2005).ready ∧ (withG1 0x2005).placed 16 ∧
    packedSize ((withG1 0x2005).sourceBytes 16) .w2 = some 5 ∧ 5 ≤ (withG1 0x2005).dend.toNat - (withG1 0x2005).dst.toNat := by
  decide
theorem witness_PackWritesPayload_pack4 : (withG1 0x2008).ready ∧ (withG1 0x2008).placed 16 ∧
    packedSize ((withG1 0x2008).sourceBytes 16) .w4 = some 8 ∧ 8 ≤ (withG1 0x2008).dend.toNat - (withG1 0x2008).dst.toNat := by
  decide
theorem witness_PackWritesPayload_pack8 : (withG1 0x2010).ready ∧ (withG1 0x2010).placed 16 ∧
    packedSize ((withG1 0x2010).sourceBytes 16) .w8 = some 16 ∧ 16 ≤ (withG1 0x2010).dend.toNat - (withG1 0x2010).dst.toNat := by
  decide
theorem witness_PackWithoutRoomFails : (withG1 0x2004).ready ∧ (withG1 0x2004).placed 16 ∧
    packedSize ((withG1 0x2004).sourceBytes 16) .w2 = some 5 ∧ (withG1 0x2004).dend.toNat - (withG1 0x2004).dst.toNat < 5 := by
  decide
theorem witness_EncgEncodesBuffer : (withG1 0x2019).ready ∧ (withG1 0x2019).glenLegal = true ∧
    (withG1 0x2019).placed (withG1 0x2019).glen.toNat ∧
    channelNeed ((withG1 0x2019).sourceBytes (withG1 0x2019).glen.toNat) ≤
      (withG1 0x2019).dend.toNat - (withG1 0x2019).dst.toNat := by decide
theorem witness_EncgWithoutRoomFails : (withG1 0x2018).ready ∧ (withG1 0x2018).glenLegal = true ∧
    (withG1 0x2018).placed (withG1 0x2018).glen.toNat ∧
    (withG1 0x2018).dend.toNat - (withG1 0x2018).dst.toNat <
      channelNeed ((withG1 0x2018).sourceBytes (withG1 0x2018).glen.toNat) := by decide
theorem witness_EncbEncodesBlock : (withS7 0x2021).ready ∧ (withS7 0x2021).vsizeLegal = true ∧ (withS7 0x2021).vcountLegal = true ∧
    (withS7 0x2021).lvvalid = true ∧ (withS7 0x2021).placed ((withS7 0x2021).vcount.toNat * (withS7 0x2021).vsize.toNat) ∧
    ∃ r, encodeBlock (withS7 0x2021).records (withS7 0x2021).vsize.toNat (ByteFile.bytes (withS7 0x2021).lv 256)
      ((withS7 0x2021).dend.toNat - (withS7 0x2021).dst.toNat) = some r :=
  ⟨by decide, by decide, by decide, by decide, by decide, Option.isSome_iff_exists.1 (by decide)⟩
theorem witness_EncbWithoutRoomFails : (withS7 0x2020).ready ∧ (withS7 0x2020).placed ((withS7 0x2020).vcount.toNat * (withS7 0x2020).vsize.toNat) ∧
    encodeBlock (withS7 0x2020).records (withS7 0x2020).vsize.toNat (ByteFile.bytes (withS7 0x2020).lv 256)
      ((withS7 0x2020).dend.toNat - (withS7 0x2020).dst.toNat) = none := by decide
theorem witness_ErrLeavesEverythingElse : isCommand .encg = true ∧ State.reset.ready ∧ firstError .encg State.reset = some .count := by
  decide
theorem witness_Encb_vsize_zero : State.reset.ready ∧ State.reset.vsize.toNat = 0 := by decide
theorem witness_Encb_count : { withS7 0x2021 with vcount := 257 }.ready ∧ 256 < { withS7 0x2021 with vcount := 257 }.vcount.toNat := by
  decide
theorem witness_Encb_lvinvalid : { withS7 0x2021 with lvvalid := false }.ready ∧ { withS7 0x2021 with lvvalid := false }.lvvalid = false := by
  decide
theorem witness_Encb_range : { withS7 0x1030 with dst := 0x100F }.ready ∧ { withS7 0x1030 with dst := 0x100F }.lvvalid = true ∧
    ((0x100F : Word).toNat < (0x1030 : Word).toNat ∧ (0x1000 : Word).toNat < (0x1030 : Word).toNat ∧
      (0x100F : Word).toNat < (0x1000 : Word).toNat + 4 * 4) := by decide
theorem witness_Range_inverted : { withG1 0x2000 with dst := 0x2001 }.ready ∧ (0x2000 : Word).toNat < (0x2001 : Word).toNat := by decide
theorem witness_Range_encg_count : { withG1 0x2000 with glen := 272 }.ready ∧ 256 < { withG1 0x2000 with glen := 272 }.glen.toNat := by
  decide
theorem witness_Lvvalid_seed : ∃ t, exec .seed seeding = .next t := ⟨_, rfl⟩
theorem witness_Lvvalid_seed_ignored : ∃ t, exec .seed failed = .next t := ⟨_, rfl⟩
theorem witness_Lvvalid_reset : ∃ t, perform .rstHigh busyEncb = .next t := ⟨_, rfl⟩
/-- `LVVALID` changes: SEED written, SEED in flight that a `WAIT` completes, `VSIZE` written on the bus, a reset. -/
theorem witness_Lvvalid_changes :
    (∃ t, step { seeding with script := [.wr offCmd 0x2] } = .next t ∧ t.lvvalid ≠ seeding.lvvalid) ∧
    (∃ t, step { seeding with inFlight := some 0x2, script := [.wait] } = .next t ∧ t.lvvalid ≠ seeding.lvvalid) ∧
    (∃ t, step { withS7 0x2021 with script := [.busWr 8 4] } = .next t ∧ t.lvvalid ≠ (withS7 0x2021).lvvalid) ∧
    ∃ t, step { withS7 0x2021 with script := [.rstHigh] } = .next t ∧ t.lvvalid ≠ (withS7 0x2021).lvvalid :=
  ⟨⟨_, rfl, by decide⟩, ⟨_, rfl, by decide⟩, ⟨_, rfl, by decide⟩, ⟨_, rfl, by decide⟩⟩
theorem witness_Lvvalid_encb : { withS7 0x2021 with lvvalid := false }.vsizeLegal = true ∧
    { withS7 0x2021 with lvvalid := false }.vcountLegal = true ∧ State.reset.rst = false ∧ State.reset.inFlight = none ∧
    offSrc ≠ offVsize := by decide
theorem witness_OnlyClrClearsFailure : ∃ t, (failed.fail = true ∨ failed.err = true) ∧ Instr.nop ≠ .clr ∧ exec .nop failed = .next t :=
  ⟨_, by decide, by decide, rfl⟩
theorem witness_WhoWritesWhichRegister : ∃ t, exec (.zz8 1) State.reset = .next t ∧ Instr.zz8 1 ≠ .seed ∧ Instr.zz8 1 ≠ .encb ∧
    usesWindow (.zz8 1) = false := ⟨_, rfl, by decide, by decide, by decide⟩
theorem witness_CommandsWriteOnlyTheirWindow : ∃ t, isCommand .encg = true ∧ exec .encg State.reset = .next t ∧
    (firstError .encg State.reset).isSome = true := ⟨_, by decide, rfl, by decide⟩
theorem witness_registers_idle : State.reset.rst = false ∧ State.reset.inFlight = none ∧ State.reset.cfg.aw ≤ 32 := by decide
theorem witness_reserved_offsets : (63 : WordOff).toNat ≤ 63 ∧ 192 ≤ (255 : WordOff).toNat ∧ 8 ≤ offResult.toNat := by decide
theorem witness_read : ∃ t, perform (.rd offStatus) State.reset = .next t := ⟨_, rfl⟩
theorem witness_BusyBlockIgnoresWrites : State.reset.ignoresCommand 0x7 = false := by decide
theorem witness_WindowsReadEntries : (0 : Nat) < 64 ∧ (withS7 0x2021).inFlight = none ∧
    ∀ k, k < 4 → (ByteFile.entry (withS7 0x2021).lv (4 * 0 + k)).specified = true := by decide
theorem witness_ResetAbandonsCommand : ∃ t, busyEncb.inFlight = some 0x7 ∧ perform .rstHigh busyEncb = .next t := ⟨_, rfl, rfl⟩

/-- The invariant holds of a seeded block with its records in place. -/
theorem withS7_inv : (withS7 0x2021).Inv :=
  {
    cfgLegal := by decide
    memCanonical := by decide
    memInSpace := by decide
    addrBitsZero := by decide
    oneFailure := by decide
    causeNone := by decide
    causeFail := by decide
    causeErr := by decide
    seeded := by decide
    busyNotDone := by decide
    inFlightAccepted := by intro c h; cases h
    inReset := by intro h; cases h }

/-- The invariant does not speak of the script. -/
theorem withS7_script_inv (script : List HostAction) : { withS7 0x2021 with script := script }.Inv :=
  { cfgLegal := withS7_inv.cfgLegal
    memCanonical := withS7_inv.memCanonical
    memInSpace := withS7_inv.memInSpace
    addrBitsZero := withS7_inv.addrBitsZero
    oneFailure := withS7_inv.oneFailure
    causeNone := withS7_inv.causeNone
    causeFail := withS7_inv.causeFail
    causeErr := withS7_inv.causeErr
    seeded := withS7_inv.seeded
    busyNotDone := withS7_inv.busyNotDone
    inFlightAccepted := withS7_inv.inFlightAccepted
    inReset := by intro h; cases h }
theorem witness_StepKeepsInvariant : ∃ s t : State, s.Inv ∧ step s = .next t :=
  ⟨{ withS7 0x2021 with script := [.wr offVcount 0x1FF] }, _, withS7_script_inv _, rfl⟩
theorem witness_StepKeepsParameters : ∃ t, step State.reset = .next t := ⟨_, rfl⟩

/-- The group of lanes 0 .. 15 (G5). -/
def ramp : List Byte := (List.range 16).map (BitVec.ofNat 8)

theorem witness_group_length : ramp.length = 16 := by decide
theorem witness_PayloadHasPackedSize : ramp.length = 16 ∧ packedSize ramp .w4 = some 9 := by decide
theorem witness_EscapeBytePosition : ramp.length = 16 ∧ isEscaped .w4 (ramp.getD 15 0) = true := by decide
theorem witness_SelectionProperties_zero : (List.replicate 16 (0 : Byte)).length = 16 ∧ ∀ v ∈ List.replicate 16 (0 : Byte), v = 0 := by
  decide
theorem witness_SelectionProperties_other : ramp.length = 16 ∧ ∃ v ∈ ramp, v ≠ 0 := by decide
theorem witness_ChannelSize : (ramp ++ ramp).length % 16 = 0 ∧ 16 ≤ (ramp ++ ramp).length := by decide
theorem witness_ChannelRoundTrip : ramp.length % 16 = 0 ∧ ∃ out, encodeGroups ramp 25 = some out :=
  ⟨by decide, Option.isSome_iff_exists.1 (by decide)⟩

/-- Two records of 4 bytes. -/
def twoRecords : List (List Byte) := [[9, 8, 7, 6], [10, 8, 6, 6]]

theorem witness_BlockSizeAndPredictor : twoRecords ≠ [] ∧ ∃ r, encodeBlock twoRecords 4 [9, 8, 7, 6] 64 = some r :=
  ⟨by decide, Option.isSome_iff_exists.1 (by decide)⟩
theorem witness_BlockRoundTrip : (∀ r ∈ twoRecords, r.length = 4) ∧ ∃ r, encodeBlock twoRecords 4 [0, 0, 0, 0] 64 = some r :=
  ⟨by decide, Option.isSome_iff_exists.1 (by decide)⟩
theorem witness_PredictorContinuity : [twoRecords].getLast? = some twoRecords ∧ twoRecords ≠ [] ∧
    (∃ out, blockLoop 4 100 [twoRecords] [9, 8, 7, 6] [0xA1] = some out) ∧
    ∀ k, k < 4 → [10, 8, 6, 6].getD k 0 = (twoRecords.getLastD []).getD k 0 :=
  ⟨by decide, by decide, Option.isSome_iff_exists.1 (by decide), by decide⟩
theorem witness_BlockVerticesRule : legalRecordSize 4 = true ∧ legalRecordSize 256 = true := by decide
theorem witness_StreamMonotonicCapacity : legalRecordSize 4 = true ∧ twoRecords ≠ [] ∧ ∀ r ∈ twoRecords, r.length = 4 := by decide
theorem witness_StreamScript : ∃ (s : State) (c : StreamCall), s.Inv ∧ s.ready ∧ s.script = .encodeStream c :: [.wait] ∧
    legalRecordSize c.vs = true ∧ 1 ≤ c.count ∧ c.out + c.cap < 2 ^ s.cfg.aw ∧ c.src + c.count * c.vs ≤ 2 ^ s.cfg.aw ∧
    (c.out + c.cap ≤ c.src ∨ c.src + c.count * c.vs ≤ c.out) ∧ covers s.cfg c.out (c.out + c.cap) = true ∧
    covers s.cfg c.src (c.src + c.count * c.vs) = true :=
  ⟨{ withS7 0x2021 with script := [.encodeStream ⟨0x1000, 0x2000, 42, 4, 4⟩, .wait] }, ⟨0x1000, 0x2000, 42, 4, 4⟩,
    withS7_script_inv _, by decide, rfl, by decide, by decide, by decide, by decide, by decide, by decide, by decide⟩
theorem witness_StreamToTop : ∃ (s : State) (c : StreamCall), s.Inv ∧ s.ready ∧ s.script = .encodeStream c :: [.wait] ∧
    legalRecordSize c.vs = true ∧ 1 ≤ c.count ∧ c.out + c.cap = 2 ^ s.cfg.aw ∧ c.src + c.count * c.vs ≤ 2 ^ s.cfg.aw ∧
    c.src + c.count * c.vs ≤ c.out ∧ covers s.cfg c.out (c.out + c.cap) = true ∧
    covers s.cfg c.src (c.src + c.count * c.vs) = true :=
  ⟨{ withS7 0x2021 with script := [.encodeStream ⟨0x1000, 0xFFFFFFD6, 42, 4, 4⟩, .wait] }, ⟨0x1000, 0xFFFFFFD6, 42, 4, 4⟩,
    withS7_script_inv _, by decide, rfl, by decide, by decide, by decide, by decide, by decide, by decide, by decide⟩
theorem witness_WidthCodesTakeGroups : packedSize [3, 0, 1, 2, 3, 0xFF, 0, 0, 0, 0, 0, 0, 0, 0, 0, 3] .w2 = some 8 ∧
    Memory.readBytes atPayloadG2.mem atPayloadG2.reader.pos 8 =
      payload [3, 0, 1, 2, 3, 0xFF, 0, 0, 0, 0, 0, 0, 0, 0, 0, 3] .w2 ∧
    atPayloadG2.reader.pos + 8 ≤ 2 ^ atPayloadG2.cfg.aw ∧
    covers atPayloadG2.cfg atPayloadG2.reader.pos (atPayloadG2.reader.pos + 8) = true ∧ atPayloadG2.inFlight = none := by decide
theorem witness_WidthCodesComplete : atPayloadG2.inFlight = none ∧
    atPayloadG2.reader.pos + payloadLength (Memory.readBytes atPayloadG2.mem atPayloadG2.reader.pos 24) .w4 ≤ 2 ^ atPayloadG2.cfg.aw ∧
    covers atPayloadG2.cfg atPayloadG2.reader.pos
      (atPayloadG2.reader.pos + payloadLength (Memory.readBytes atPayloadG2.mem atPayloadG2.reader.pos 24) .w4) = true := by decide
theorem witness_FormatByte_short : (calling 4).inFlight = none ∧ (calling 4).call.cap < 1 + (calling 4).call.vs := by decide
theorem witness_FormatByte_room : 1 + (calling 5).call.vs ≤ (calling 5).call.cap ∧ (calling 5).call.out + 1 ≤ 2 ^ (calling 5).cfg.aw ∧
    covers (calling 5).cfg (calling 5).call.out ((calling 5).call.out + 1) = true := by decide
theorem witness_StartThenComplete : failed.ignoresCommand 0x00000001 = false := by decide
theorem witness_HandOff_window : busyEncb.inFlight = some 0x7 ∧ decodeCommand 0x7 = .ok .encb ∧ usesWindow .encb = true ∧
    busyEncb.inWindow 0x2020 ∧ 0x2020 < 2 ^ busyEncb.cfg.aw ∧ covers busyEncb.cfg 0x2020 (0x2020 + 1) = true := by decide
theorem witness_HandOff_source : busyEncb.src.toNat ≤ 0x100F ∧ 0x100F < busyEncb.src.toNat + sourceLength .encb busyEncb := by decide

end Sys2Proof.Tests.Slice0
end

/-! Lemmas: the encoders' outputs have the sizes the spec gives and fit the capacity they were given (R111, R112, R140,
R153, R179). -/

namespace Sys2Proof.Machine

@[simp] theorem fixedBytes_length (g : List Byte) (b : Width) : (fixedBytes g b).length = groupSize / byteSize b := by
  simp [fixedBytes]

theorem escapes_length (b : Width) (g : List Byte) : (escapes b g).length = g.countP (isEscaped b) :=
  List.countP_eq_length_filter.symm

/-- A payload is as long as its packed size (R111, R112). -/
theorem payload_length {g : List Byte} {b : Width} {n : Nat} (hg : g.length = groupSize) (h : packedSize g b = some n) :
    (payload g b).length = n := by
  cases b with
  | w1 =>
    simp only [packedSize] at h
    split at h <;> cases h
    rfl
  | w2 =>
    cases h
    rw [payload, List.length_append, fixedBytes_length, escapes_length]
    rfl
  | w4 =>
    cases h
    rw [payload, List.length_append, fixedBytes_length, escapes_length]
    rfl
  | w8 =>
    cases h
    exact hg

theorem packGroup_length_le {g out : List Byte} {b : Width} {cap : Nat} (hg : g.length = groupSize)
    (h : packGroup g b cap = some out) : out.length ≤ cap := by
  unfold packGroup at h
  split at h
  · cases h
  · rename_i n hn
    split at h <;> cases h
    have := payload_length hg hn
    omega

theorem length_of_mem_groupsOf {buf g : List Byte} (h : g ∈ groupsOf buf) : g.length = groupSize := by
  simp only [groupsOf, List.mem_map, List.mem_range] at h
  obtain ⟨k, hk, rfl⟩ := h
  simp only [groupAt, groupSize, List.length_take, List.length_drop] at hk ⊢
  omega

@[simp] theorem putCode_length (header : List Byte) (k code : Nat) : (putCode header k code).length = header.length := by
  simp [putCode]

/-- The loop adds at most the room it was given to the header (R140). -/
theorem encodeLoop_length_le {room : Nat} : ∀ {groups : List (List Byte)} {k : Nat} {header out r : List Byte},
    (∀ g ∈ groups, g.length = groupSize) → out.length ≤ room → encodeLoop room groups k header out = some r →
      r.length ≤ header.length + room
  | [], _, _, _, _, _, hout, h => by
    cases h
    simpa using hout
  | g :: groups, k, header, out, r, hg, hout, h => by
    simp only [encodeLoop] at h
    split at h
    · cases h
    · split at h
      · cases h
      · rename_i p hp
        have hplen := packGroup_length_le (hg g List.mem_cons_self) hp
        have hout' : (out ++ p).length ≤ room := by simp only [List.length_append]; omega
        simpa using encodeLoop_length_le (fun g' hg' => hg g' (List.mem_cons_of_mem g hg')) hout' h

theorem encodeGroups_length_le {buf out : List Byte} {cap : Nat} (h : encodeGroups buf cap = some out) :
    out.length ≤ cap := by
  simp only [encodeGroups] at h
  split at h
  · cases h
  · have := encodeLoop_length_le (fun _ => length_of_mem_groupsOf) (Nat.zero_le _) h
    simp only [List.length_replicate] at this
    omega

theorem channelLoop_length_le {recs : List (List Byte)} {lv : List Byte} {cap : Nat} :
    ∀ {ks : List Nat} {out r : List Byte}, out.length ≤ cap → channelLoop recs lv cap ks out = some r → r.length ≤ cap
  | [], _, _, hout, h => by
    cases h
    exact hout
  | k :: ks, out, r, hout, h => by
    simp only [channelLoop] at h
    split at h
    · cases h
    · rename_i p hp
      have hplen := encodeGroups_length_le hp
      exact channelLoop_length_le (by simp only [List.length_append]; omega) h

theorem encodeBlock_length_le {recs : List (List Byte)} {vs cap : Nat} {lv out lv' : List Byte}
    (h : encodeBlock recs vs lv cap = some (out, lv')) : out.length ≤ cap := by
  unfold encodeBlock at h
  split at h
  · cases h
  · rename_i r hr
    cases h
    exact channelLoop_length_le (Nat.zero_le _) hr

theorem tailBytes_length {vs : Nat} {first : List Byte} (h : first.length = vs) :
    (tailBytes vs first).length = tailSize vs := by
  simp only [tailBytes, tailSize, List.length_append, List.length_replicate]
  omega

end Sys2Proof.Machine

/-! Definitions and lemmas: what the rule of an accepted command can leave, and the updates a step of the machine is made
of. Every invariant of the steps follows from these two lists, without a look at the actions again. -/

namespace Sys2Proof.Machine

/-- The causes of a Fail (R195). -/
abbrev Cause.ofFail (c : Cause) : Prop := c = .capacity ∨ c = .inapplicable

/-- The causes of an Err (R195). -/
abbrev Cause.ofErr (c : Cause) : Prop := c = .opcode ∨ c = .vsize ∨ c = .count ∨ c = .lvinvalid ∨ c = .range

/-- What the rule of an accepted command can leave, before the command completes (R32, R157, R168, R193, R194, R42). -/
inductive RuleEffect (s : State) : State → Prop
  | result (v : Word) : RuleEffect s (s.setResult v)
  | cleared : RuleEffect s s.clearFailure
  | err {c : Cause} (hc : c.ofErr) (hready : s.fail = false) : RuleEffect s (s.raiseErr c)
  | seeded {v : List Byte} (hlegal : s.vsizeLegal = true) (hlen : v.length = s.vsize.toNat) :
      RuleEffect s { s with lv := ByteFile.overwrite s.lv v, lvvalid := true, result := 0 }
  | produced (v : List Byte) (db : ByteFile) {out : List Byte} (hfits : out.length ≤ s.capacity) :
      RuleEffect s ({ s with lv := ByteFile.overwrite s.lv v, db := db }.produce out)
  | failed (db : ByteFile) {c : Cause} (hc : c.ofFail) (hready : s.err = false) :
      RuleEffect s ({ s with db := db }.spoilWindow.raiseFail c)

/-- `s` with the fields of the host, of the reader and of the free values as in `u`; the parameters, the block and the
memory are those of `s`. -/
def State.withHost (s u : State) : State :=
  { s with
    script := u.script
    rdata := u.rdata
    mdata := u.mdata
    reader := u.reader
    call := u.call
    callResult := u.callResult
    draws := u.draws }

/-- The updates a step is made of. -/
inductive Update (s : State) : State → Prop
  /-- The host or the reader moves on. -/
  | host {u : State} (h : s.withHost u = u) : Update s u
  /-- The host stores bytes inside the address space (R50, R54). -/
  | store {a : Nat} {v : List Byte} (hfits : v = [] ∨ a + v.length ≤ 2 ^ s.cfg.aw) :
      Update s { s with mem := s.mem.write a v }
  /-- A register other than `CMD` is written (R169). -/
  | register (off : WordOff) (v : Word) : Update s (regWrite off v s)
  /-- A command is accepted and stays in flight (R165). -/
  | started {c : Word} (h : s.ignoresCommand c = false) : Update s (s.accept c)
  /-- The word in flight is taken up to be run (R165). -/
  | takenUp : Update s { s with inFlight := none }
  /-- A command is accepted, run and completed (R165). -/
  | ran {c : Word} {u : State} (h : s.ignoresCommand c = false) (hu : RuleEffect (s.accept c) u) : Update s u.complete
  /-- The window takes free values (R216). -/
  | spoiled : Update s s.spoilWindow
  /-- The block is reset (R215). -/
  | reset : Update s { s.blockReset with rst := true }
  /-- The reset input goes to 0 (R215). -/
  | released : Update s { s with rst := false }

/-- One update after another. -/
abbrev Updates : State → State → Prop := Relation.ReflTransGen Update

/-! ## The rules of the commands -/

theorem ofErr_of_firstFailing {l : List (Bool × Cause)} {c : Cause} (hl : ∀ p ∈ l, p.2.ofErr)
    (h : firstFailing l = some c) : c.ofErr := by
  induction l with
  | nil => cases h
  | cons p l ih =>
    simp only [firstFailing] at h
    split at h
    · cases h
      exact hl p List.mem_cons_self
    · exact ih (fun q hq => hl q (List.mem_cons_of_mem p hq)) h

/-- A precondition that fails is the cause of an Err (R195, R196). -/
theorem ofErr_of_firstError {i : Instr} {s : State} {c : Cause} (h : firstError i s = some c) : c.ofErr := by
  cases i with
  | nop | clr | zz8 | dz8 | width1 | width2 | width4 | width8 | formatV1 => cases h
  | seed | pack1 | pack2 | pack4 | pack8 | encg | encb => exact ofErr_of_firstFailing (by simp [Cause.ofErr]) h

theorem ByteFile.overwrite_nil (f : ByteFile) : ByteFile.overwrite f [] = f := by
  simp [ByteFile.overwrite, Vector.toList]

/-- A command whose operation has only the effects listed has only these with its checks (R194, R199). -/
theorem ruleEffect_of_checked {i : Instr} {op : State → Result} {s u : State} (hready : s.fail = false)
    (hop : firstError i s = none → op s = .next u → RuleEffect s u) (h : checked i op s = .next u) : RuleEffect s u := by
  rcases checked_next h with ⟨c, hc, rfl⟩ | ⟨hok, -, hu⟩
  · exact .err (ofErr_of_firstError hc) hready
  · exact hop hok hu

/-- An operation that leaves the predictor alone produces as one that writes no byte of it. -/
theorem RuleEffect.producedWithoutPredictor {s : State} (db : ByteFile) {out : List Byte} (hfits : out.length ≤ s.capacity) :
    RuleEffect s ({ s with db := db }.produce out) := by
  simpa only [ByteFile.overwrite_nil] using RuleEffect.produced [] db hfits

theorem seedOperation_effect {s u : State} (hok : firstError .seed s = none) (h : seedOperation s = .next u) :
    RuleEffect s u := by
  have hlegal : s.vsizeLegal = true := by
    simpa using firstFailing_eq_none.1 hok (!s.vsizeLegal, .vsize) List.mem_cons_self
  cases h
  exact .seeded hlegal (Memory.readBytes_length _ _ _)

theorem packOperation_effect {b : Width} {s u : State} (hready : s.err = false) (h : packOperation b s = .next u) :
    RuleEffect s u := by
  rcases packOperation_next h with ⟨out, hout, rfl⟩ | ⟨-, ⟨-, rfl⟩ | ⟨-, rfl⟩⟩
  · exact .producedWithoutPredictor _ (packGroup_length_le (Memory.readBytes_length _ _ _) hout)
  · exact .failed _ (.inr rfl) hready
  · exact .failed _ (.inl rfl) hready

theorem encgOperation_effect {s u : State} (hready : s.err = false) (h : encgOperation s = .next u) : RuleEffect s u := by
  rcases encgOperation_next h with ⟨out, hout, rfl⟩ | ⟨-, rfl⟩
  · exact .producedWithoutPredictor _ (encodeGroups_length_le hout)
  · exact .failed _ (.inl rfl) hready

theorem encbOperation_effect {s u : State} (hready : s.err = false) (h : encbOperation s = .next u) : RuleEffect s u := by
  rcases encbOperation_next h with ⟨out, lv', hout, rfl⟩ | ⟨-, rfl⟩
  · exact .produced _ _ (encodeBlock_length_le hout)
  · exact .failed _ (.inl rfl) hready

/-! ## The writes to `CMD` -/

/-- A write to `CMD` is no update when it is ignored, and one when the rule has only the effects listed (R165). -/
theorem command_updates {c : Word} {op : State → Result} {s t : State} (h : command c op s = .next t)
    (hop : s.ignoresCommand c = false → ∀ u, op (s.accept c) = .next u → RuleEffect (s.accept c) u) : Updates s t := by
  rcases command_next h with ⟨-, rfl⟩ | ⟨hc, u, hu, rfl⟩
  · exact .refl
  · exact .single (.ran hc (hop hc u hu))

/-- The same for a command with checks, which is accepted only with no failure pending (R165). -/
theorem checkedCommand_updates {i : Instr} {op : State → Result} {s t : State} (hi : isCommand i = true) (hclr : i ≠ .clr)
    (h : command (commandWord i) (checked i op) s = .next t)
    (hop : ∀ r u, r.err = false → firstError i r = none → op r = .next u → RuleEffect r u) : Updates s t :=
  command_updates h fun hc u hu => by
    obtain ⟨-, -, hfail, herr⟩ := ready_of_not_ignored hc (commandWord_ne_clr hi hclr)
    exact ruleEffect_of_checked hfail (hop _ u herr) hu

/-- A command that only gives a result (R32). -/
theorem resultCommand_updates {c v : Word} {s t : State} (h : command c (fun r => .next (r.setResult v)) s = .next t) :
    Updates s t :=
  command_updates h fun _ _ hu => by
    cases hu
    exact .result v

/-- A store of the host that answers a next state is inside the address space (R50). -/
theorem hostStore_update {s t : State} {a : Nat} {v : List Byte}
    (h : hostAccess s a v.length true (.next { s with mem := s.mem.write a v }) = .next t) : Update s t := by
  obtain ⟨hgo, hfits, -, -⟩ := hostAccess_next h
  cases hgo
  exact .store (hfits.imp_left List.length_eq_zero_iff.1)

theorem takeGroup_updates {b : Width} {s t : State} (h : takeGroup b s = .next t) : Updates s t := by
  rw [takeGroup_next h]
  exact .single (.host rfl)

theorem execFormatV1_updates {s t : State} (h : execFormatV1 s = .next t) : Updates s t := by
  unfold execFormatV1 at h
  split at h
  · cases h
    exact .single (.host rfl)
  · exact .single (hostStore_update (v := [formatByte]) h)

theorem exec_updates {i : Instr} {s t : State} (h : exec i s = .next t) : Updates s t := by
  cases i with
  | nop => exact resultCommand_updates h
  | clr =>
    refine command_updates (c := commandWord .clr) (op := fun r => .next r.clearFailure) h fun _ _ hu => ?_
    cases hu
    exact .cleared
  | seed => exact checkedCommand_updates (i := .seed) rfl nofun h fun _ _ _ => seedOperation_effect
  | zz8 a => exact resultCommand_updates h
  | dz8 a b => exact resultCommand_updates h
  | pack1 => exact checkedCommand_updates (i := .pack1) rfl nofun h fun _ _ herr _ => packOperation_effect herr
  | pack2 => exact checkedCommand_updates (i := .pack2) rfl nofun h fun _ _ herr _ => packOperation_effect herr
  | pack4 => exact checkedCommand_updates (i := .pack4) rfl nofun h fun _ _ herr _ => packOperation_effect herr
  | pack8 => exact checkedCommand_updates (i := .pack8) rfl nofun h fun _ _ herr _ => packOperation_effect herr
  | encg => exact checkedCommand_updates (i := .encg) rfl nofun h fun _ _ herr _ => encgOperation_effect herr
  | encb => exact checkedCommand_updates (i := .encb) rfl nofun h fun _ _ herr _ => encbOperation_effect herr
  | width1 => exact takeGroup_updates (b := .w1) h
  | width2 => exact takeGroup_updates (b := .w2) h
  | width4 => exact takeGroup_updates (b := .w4) h
  | width8 => exact takeGroup_updates (b := .w8) h
  | formatV1 => exact execFormatV1_updates h

theorem illegalCommand_updates {c : Word} {s t : State} (hc : c ≠ 0x00000001) (h : illegalCommand c s = .next t) :
    Updates s t :=
  command_updates h fun hacc _ hu => by
    obtain ⟨-, -, hfail, -⟩ := ready_of_not_ignored hacc hc
    cases hu
    exact .err (.inl rfl) hfail

theorem writeCommand_updates {c : Word} {s t : State} (h : writeCommand c s = .next t) : Updates s t := by
  unfold writeCommand at h
  split at h
  · exact exec_updates h
  · rename_i r hr
    have hc : c ≠ 0x00000001 := by
      rintro rfl
      have hclr : decodeCommand 0x00000001 = .ok .clr := by decide
      rw [hclr] at hr
      cases hr
    exact illegalCommand_updates hc h

/-! ## The actions of the host -/

theorem writeRegister_updates {off : WordOff} {v : Word} {s t : State} (h : writeRegister off v s = .next t) :
    Updates s t := by
  unfold writeRegister at h
  split at h
  · exact writeCommand_updates h
  · cases h
    exact .single (.register off v)

theorem startCommand_updates (c : Word) (s : State) : Updates s (startCommand c s) := by
  unfold startCommand
  split
  · exact .refl
  · rename_i hc
    exact .single (.started (Bool.eq_false_iff.2 hc))

theorem completeInFlight_updates {s t : State} (h : completeInFlight s = .next t) : Updates s t := by
  unfold completeInFlight at h
  split at h
  · cases h
    exact .refl
  · exact .head .takenUp (writeCommand_updates h)

theorem hostWait_updates {s t : State} (h : hostWait s = .next t) : Updates s t := by
  unfold hostWait at h
  split at h
  · exact .head (.host rfl) (completeInFlight_updates h)
  · split at h <;> cases h <;> exact .single (.host rfl)

theorem resetBlock_updates {s t : State} (h : resetBlock s = .next t) : Updates s t := by
  rcases resetBlock_next h with ⟨-, rfl⟩ | ⟨-, rfl⟩
  · exact .head .spoiled (.single .reset)
  · exact .single .reset

theorem takeHeader_updates {groups : Nat} {s t : State} (h : takeHeader groups s = .next t) : Updates s t := by
  obtain ⟨hgo, -, -, -⟩ := hostAccess_next h
  cases hgo
  exact .single (.host rfl)

theorem beginStream_updates {c : StreamCall} {s t : State} (h : beginStream c s = .next t) : Updates s t := by
  unfold beginStream at h
  split at h
  · cases h
    exact .single (.host rfl)
  · split at h <;> cases h
    exact .single (.host rfl)

theorem expectNoErr_updates {s t : State} (h : expectNoErr s = .next t) : Updates s t := by
  unfold expectNoErr at h
  simp only at h
  split at h <;> cases h <;> exact .single (.host rfl)

theorem checkStatus_updates {s t : State} (h : checkStatus s = .next t) : Updates s t := by
  unfold checkStatus at h
  simp only at h
  split at h
  · cases h
    exact .single (.host rfl)
  · exact expectNoErr_updates h

/-- The tail is stored inside the address space, since its last byte was (R50, R179). -/
theorem finishCall_updates {s t : State} (h : finishCall s = .next t) : Updates s t := by
  unfold finishCall at h
  simp only at h
  split at h
  · cases h
    exact .single (.host rfl)
  · obtain ⟨hstore, -, -, -⟩ := hostAccess_next h
    obtain ⟨hgo, hfits, -, -⟩ := hostAccess_next hstore
    cases hgo
    rw [← tailBytes_length (Memory.readBytes_length s.mem s.call.src s.call.vs), List.length_eq_zero_iff] at hfits
    exact .head (.host (u := regRead offDst s) rfl) (.head (.store hfits) (.single (.host rfl)))

theorem perform_updates {a : HostAction} {s t : State} (h : perform a s = .next t) : Updates s t := by
  cases a with
  | wr off v => exact writeRegister_updates h
  | rd off =>
    cases h
    exact .single (.host rfl)
  | memw addr bytes => exact .single (hostStore_update h)
  | memr addr n =>
    obtain ⟨hgo, -, -, -⟩ := hostAccess_next h
    cases hgo
    exact .single (.host rfl)
  | wait => exact hostWait_updates h
  | start c =>
    cases h
    exact startCommand_updates c s
  | blockCompletes => exact completeInFlight_updates h
  | rstHigh => exact resetBlock_updates h
  | rstLow =>
    cases h
    exact .single .released
  | tag b =>
    simp only [perform] at h
    split at h
    · exact exec_updates h
    · cases h
  | slot c => exact exec_updates h
  | readAt addr =>
    cases h
    exact .single (.host rfl)
  | readChannel groups => exact takeHeader_updates h
  | encodeStream c => exact beginStream_updates h
  | checkSeed => exact expectNoErr_updates h
  | checkBlock => exact checkStatus_updates h
  | finishStream => exact finishCall_updates h
  | giveBack n =>
    cases h
    exact .single (.host rfl)
  | busWr addr v =>
    simp only [perform] at h
    split at h
    · exact writeRegister_updates h
    · cases h
  | busRd addr =>
    simp only [perform] at h
    split at h <;> cases h
    exact .single (.host rfl)

/-- A step is made of the updates listed. -/
theorem step_updates {s t : State} (h : step s = .next t) : Updates s t := by
  cases hs : s.script with
  | nil => exact completeInFlight_updates (step_of_empty hs ▸ h)
  | cons a rest => exact .head (.host rfl) (perform_updates (step_of_script hs ▸ h))

/-! ## The parameters -/

theorem RuleEffect.cfg {s u : State} (h : RuleEffect s u) : u.cfg = s.cfg := by
  cases h with
  | result | cleared | err | seeded | produced | failed => rfl

theorem regWrite_cfg (off : WordOff) (v : Word) (s : State) : (regWrite off v s).cfg = s.cfg := by
  rcases regWrite_cases off v s with h | ⟨-, -, h | h | h | h | h | h⟩ <;> simp [h]

theorem Update.cfg {s t : State} (h : Update s t) : t.cfg = s.cfg := by
  cases h with
  | host h =>
    rw [← h]
    rfl
  | register off v => exact regWrite_cfg off v s
  | ran _ hu => exact hu.cfg
  | store | started | takenUp | spoiled | reset | released => rfl

theorem Updates.cfg {s t : State} (h : Updates s t) : t.cfg = s.cfg := by
  induction h with
  | refl => rfl
  | tail _ hstep ih => exact hstep.cfg.trans ih

/-- Settles O39: no update a step is made of writes the parameters. -/
theorem stepKeepsParameters : Obligations.StepKeepsParameters := fun _ _ h => (step_updates h).cfg

end Sys2Proof.Machine

/-! Definitions and lemmas: the invariant in the parts that the updates touch, and that each update keeps it. -/

namespace Sys2Proof.Machine

/-- The part of the invariant on the parameters, the memory and the address registers (R8, R29 to R31, R50). -/
structure SpaceInv (c : Config) (m : Memory) (src dst dend : Word) : Prop where
  legal : c.wf
  canonical : m.wf
  inSpace : ∀ cell ∈ m, cell.1 < 2 ^ c.aw
  srcBits : src.toNat < 2 ^ c.aw
  dstBits : dst.toNat < 2 ^ c.aw
  dendBits : dend.toNat < 2 ^ c.aw

/-- The part on the failure flags and their cause (R25, R195). -/
structure FailureInv (fail err : Bool) (cause : Cause) : Prop where
  one : ¬(fail = true ∧ err = true)
  ofNone : fail = false → err = false → cause = .none
  ofFail : fail = true → cause.ofFail
  ofErr : err = true → cause.ofErr

/-- The part on the predictor (R21, R33). -/
def PredictorInv (valid : Bool) (vsize : BitVec 9) (lv : ByteFile) : Prop :=
  valid = true → legalRecordSize vsize.toNat = true ∧ ∀ k, k < vsize.toNat → (ByteFile.entry lv k).specified = true

/-- The part on the command in flight (R25, R165). -/
structure FlightInv (inFlight : Option Word) (done fail err : Bool) : Prop where
  notDone : inFlight.isSome = true → done = false
  accepted : ∀ c, inFlight = some c → (fail = false ∧ err = false) ∨ c = 0x00000001

/-- The part that a command keeps from its acceptance to its completion. -/
structure State.RunInv (s : State) : Prop where
  space : SpaceInv s.cfg s.mem s.src s.dst s.dend
  failure : FailureInv s.fail s.err s.cause
  predictor : PredictorInv s.lvvalid s.vsize s.lv

/-- The part on the reset state (R215). -/
def State.ResetInv (s : State) : Prop := s.rst = true → s.blockReset = s

/-- The invariant is the conjunction of its parts. -/
theorem inv_iff {s : State} :
    s.Inv ↔ s.RunInv ∧ FlightInv s.inFlight s.done s.fail s.err ∧ s.ResetInv := by
  constructor
  · rintro ⟨hcfg, hcanon, hspace, ⟨hsrc, hdst, hdend⟩, hone, hnone, hfail, herr, hseeded, hdone, hacc, hreset⟩
    exact ⟨⟨⟨hcfg, hcanon, hspace, hsrc, hdst, hdend⟩, ⟨hone, hnone, hfail, herr⟩, hseeded⟩, ⟨hdone, hacc⟩, hreset⟩
  · rintro ⟨⟨⟨hcfg, hcanon, hspace, hsrc, hdst, hdend⟩, ⟨hone, hnone, hfail, herr⟩, hseeded⟩, ⟨hdone, hacc⟩, hreset⟩
    exact ⟨hcfg, hcanon, hspace, ⟨hsrc, hdst, hdend⟩, hone, hnone, hfail, herr, hseeded, hdone, hacc, hreset⟩

/-! ## The parts -/

theorem SpaceInv.store {c : Config} {m : Memory} {src dst dend : Word} (h : SpaceInv c m src dst dend) {a : Nat}
    {v : List Byte} (hfits : v = [] ∨ a + v.length ≤ 2 ^ c.aw) : SpaceInv c (m.write a v) src dst dend :=
  { h with
    canonical := Memory.wf_write h.canonical a v
    inSpace := Memory.inSpace_write h.inSpace hfits }

/-- A store at the cursor of no more bytes than the capacity is inside the address space (R31, R50). -/
theorem SpaceInv.storeWindow {c : Config} {m : Memory} {src dst dend : Word} (h : SpaceInv c m src dst dend)
    {v : List Byte} (hfits : v.length ≤ dend.toNat - dst.toNat) : SpaceInv c (m.write dst.toNat v) src dst dend := by
  have hdend := h.dendBits
  refine h.store (or_iff_not_imp_left.2 fun hv => ?_)
  have hpos := List.length_pos_iff.2 hv
  omega

theorem addrBits_lt {c : Config} (h : c.wf) (v : Nat) : (addrBits c v).toNat < 2 ^ c.aw := by
  obtain ⟨-, haw, -, -⟩ := h
  rw [addrBits_toNat haw]
  exact Nat.mod_lt _ (Nat.two_pow_pos _)

theorem failureInv_none : FailureInv false false .none := ⟨nofun, fun _ _ => rfl, nofun, nofun⟩

theorem failureInv_fail {err : Bool} {c : Cause} (he : err = false) (hc : c.ofFail) : FailureInv true err c := by
  subst he
  exact ⟨nofun, nofun, fun _ => hc, nofun⟩

theorem failureInv_err {fail : Bool} {c : Cause} (hf : fail = false) (hc : c.ofErr) : FailureInv fail true c := by
  subst hf
  exact ⟨nofun, nofun, nofun, fun _ => hc⟩

/-- An overwrite leaves no entry unspecified that was specified. -/
theorem ByteFile.specified_overwrite {f : ByteFile} (v : List Byte) {k : Nat} (h : (f.entry k).specified = true) :
    ((ByteFile.overwrite f v).entry k).specified = true := by
  rw [ByteFile.entry_overwrite]
  split
  · rfl
  · exact h

theorem PredictorInv.overwrite {valid : Bool} {vsize : BitVec 9} {lv : ByteFile} (h : PredictorInv valid vsize lv)
    (v : List Byte) : PredictorInv valid vsize (ByteFile.overwrite lv v) := fun hvalid =>
  ⟨(h hvalid).1, fun k hk => ByteFile.specified_overwrite v ((h hvalid).2 k hk)⟩

/-- SEED writes every entry below a legal `VSIZE` (R21, R157). -/
theorem predictorInv_seeded {vsize : BitVec 9} {v : List Byte} (valid : Bool) (lv : ByteFile)
    (hlegal : legalRecordSize vsize.toNat = true) (hlen : v.length = vsize.toNat) :
    PredictorInv valid vsize (ByteFile.overwrite lv v) := by
  refine fun _ => ⟨hlegal, fun k hk => ?_⟩
  have hmax : vsize.toNat ≤ 256 := by
    simp only [legalRecordSize, Bool.and_eq_true, decide_eq_true_eq] at hlegal
    exact hlegal.1.2
  rw [ByteFile.entry_overwrite, if_pos (by omega)]

theorem flightInv_idle (done fail err : Bool) : FlightInv none done fail err := ⟨nofun, nofun⟩

theorem resetInv_of_low {s : State} (h : s.rst = false) : s.ResetInv := fun h' => absurd (h.symm.trans h') nofun

/-! ## The updates -/

/-- The rule of an accepted command keeps the part of the invariant that a running command keeps. -/
theorem RuleEffect.runInv {s u : State} (h : RuleEffect s u) (hs : s.RunInv) : u.RunInv := by
  obtain ⟨hspace, hfailure, hpredictor⟩ := hs
  cases h with
  | result v => exact ⟨hspace, hfailure, hpredictor⟩
  | cleared => exact ⟨hspace, failureInv_none, hpredictor⟩
  | err hc hready => exact ⟨hspace, failureInv_err hready hc, hpredictor⟩
  | seeded hlegal hlen => exact ⟨hspace, hfailure, predictorInv_seeded _ _ hlegal hlen⟩
  | @produced v db out hfits =>
    have hlen : (out ++ s.freeBytes (s.capacity - out.length)).length = s.capacity := by
      rw [List.length_append, State.freeBytes_length, Nat.add_sub_cancel' hfits]
    have hstored := hspace.storeWindow hlen.le
    exact ⟨{ hstored with dstBits := addrBits_lt hspace.legal _ }, hfailure, hpredictor.overwrite v⟩
  | failed db hc hready =>
    have hstored := hspace.storeWindow (State.freeBytes_length s s.capacity).le
    exact ⟨hstored, failureInv_fail hready hc, hpredictor⟩

theorem RuleEffect.rst {s u : State} (h : RuleEffect s u) : u.rst = s.rst := by
  cases h with
  | result | cleared | err | seeded | produced | failed => rfl

theorem rst_of_not_ignored {s : State} {c : Word} (h : s.ignoresCommand c = false) : s.rst = false := by
  by_contra hrst
  exact absurd (ignoresCommand_of_rst (Bool.eq_true_of_not_eq_false hrst) c) (by simp [h])

/-- A command stays in flight over a pending failure only if it is CLR (R165). -/
theorem flightInv_accept {s : State} {c : Word} (h : s.ignoresCommand c = false) :
    FlightInv (some c) false s.fail s.err := by
  refine ⟨fun _ => rfl, ?_⟩
  rintro _ ⟨⟩
  by_cases hc : c = 0x00000001
  · exact .inr hc
  · obtain ⟨-, -, hfail, herr⟩ := ready_of_not_ignored h hc
    exact .inl ⟨hfail, herr⟩

/-- A block that is idle and out of reset meets the invariant by the part that a running command keeps. -/
theorem inv_of_idle {s : State} (hrun : s.RunInv) (hidle : s.inFlight = none) (hrst : s.rst = false) : s.Inv := by
  refine inv_iff.2 ⟨hrun, ?_, resetInv_of_low hrst⟩
  rw [hidle]
  exact flightInv_idle _ _ _

theorem regWrite_inv {s : State} (off : WordOff) (v : Word) (hs : s.Inv) : (regWrite off v s).Inv := by
  obtain ⟨⟨hspace, hfailure, hpredictor⟩, -, -⟩ := inv_iff.1 hs
  have hbits := addrBits_lt hspace.legal v.toNat
  rcases regWrite_cases off v s with h | ⟨hrst, hidle, h | h | h | h | h | h⟩ <;> rw [h]
  · exact hs
  · exact inv_of_idle ⟨hspace, hfailure, nofun⟩ hidle hrst
  · exact inv_of_idle ⟨hspace, hfailure, hpredictor⟩ hidle hrst
  · exact inv_of_idle ⟨hspace, hfailure, hpredictor⟩ hidle hrst
  · exact inv_of_idle ⟨{ hspace with srcBits := hbits }, hfailure, hpredictor⟩ hidle hrst
  · exact inv_of_idle ⟨{ hspace with dstBits := hbits }, hfailure, hpredictor⟩ hidle hrst
  · exact inv_of_idle ⟨{ hspace with dendBits := hbits }, hfailure, hpredictor⟩ hidle hrst

/-- The reset state does not speak of the memory or of the free values (R41). -/
theorem State.ResetInv.withMemory {s : State} (h : s.ResetInv) (m : Memory) (d : Nat) :
    ({ s with mem := m, draws := d } : State).ResetInv := fun hrst =>
  congrArg (fun r : State => { r with mem := m, draws := d }) (h hrst)

theorem Update.inv {s t : State} (h : Update s t) (hs : s.Inv) : t.Inv := by
  obtain ⟨hrun, hflight, hreset⟩ := inv_iff.1 hs
  obtain ⟨hspace, hfailure, hpredictor⟩ := hrun
  cases h with
  | host h =>
    rw [← h]
    exact inv_iff.2 ⟨⟨hspace, hfailure, hpredictor⟩, hflight, fun hrst => congrArg (State.withHost · t) (hreset hrst)⟩
  | store hfits =>
    exact inv_iff.2 ⟨⟨hspace.store hfits, hfailure, hpredictor⟩, hflight, hreset.withMemory _ s.draws⟩
  | register off v => exact regWrite_inv off v hs
  | started h =>
    have hrst := rst_of_not_ignored h
    exact inv_iff.2 ⟨⟨hspace, hfailure, hpredictor⟩, flightInv_accept (s := s) h, resetInv_of_low hrst⟩
  | takenUp =>
    exact inv_iff.2
      ⟨⟨hspace, hfailure, hpredictor⟩, flightInv_idle _ _ _,
        fun hrst => congrArg (fun r : State => { r with inFlight := none }) (hreset hrst)⟩
  | ran h hu =>
    obtain ⟨huspace, hufailure, hupredictor⟩ := hu.runInv ⟨hspace, hfailure, hpredictor⟩
    have hrst := hu.rst.trans (rst_of_not_ignored (s := s) h)
    exact inv_of_idle ⟨huspace, hufailure, hupredictor⟩ rfl hrst
  | spoiled =>
    have hstored := hspace.storeWindow (State.freeBytes_length s s.capacity).le
    exact inv_iff.2 ⟨⟨hstored, hfailure, hpredictor⟩, hflight, hreset.withMemory _ _⟩
  | reset =>
    have hzero : (0 : Word).toNat < 2 ^ s.cfg.aw := Nat.two_pow_pos _
    exact inv_iff.2
      ⟨⟨{ hspace with srcBits := hzero, dstBits := hzero, dendBits := hzero }, failureInv_none, nofun⟩,
        flightInv_idle _ _ _, fun _ => rfl⟩
  | released => exact inv_iff.2 ⟨⟨hspace, hfailure, hpredictor⟩, hflight, resetInv_of_low rfl⟩

theorem Updates.inv {s t : State} (h : Updates s t) (hs : s.Inv) : t.Inv := by
  induction h with
  | refl => exact hs
  | tail _ hstep ih => exact hstep.inv ih

/-- Settles O38: each update a step is made of keeps every part of the invariant. -/
theorem stepKeepsInvariant : Obligations.StepKeepsInvariant := fun _ _ hs h => (step_updates h).inv hs

end Sys2Proof.Machine

/-! Lemmas and obligations: what the host reads of a register, and what a register write leaves (R21, R23 to R36). -/

namespace Sys2Proof.Machine

/-! ## Words put together from fields -/

theorem toNat_append_eq_add {n m : Nat} (x : BitVec n) (y : BitVec m) : (x ++ y).toNat = x.toNat * 2 ^ m + y.toNat := by
  rw [BitVec.toNat_append, ← Nat.shiftLeft_add_eq_or_of_lt y.isLt, Nat.shiftLeft_eq]

theorem flagBit_toNat (b : Bool) : (flagBit b).toNat = b.toNat := by cases b <;> rfl

/-- `STATUS` is the sum of its fields at their weights (R25). -/
theorem State.statusWord_toNat (s : State) : s.statusWord.toNat =
    s.inFlight.isSome.toNat + 2 * s.done.toNat + 4 * s.fail.toNat + 8 * s.err.toNat + 16 * s.lvvalid.toNat +
      256 * (causeCode s.cause).toNat := by
  simp only [State.statusWord, State.busy, toNat_append_eq_add, flagBit_toNat, BitVec.ofNat_eq_ofNat, BitVec.toNat_ofNat,
    Nat.zero_mod]
  omega

/-- Settles O29: the fields at their weights, the cause by its code. -/
theorem statusWordLayout : Obligations.StatusWordLayout := by
  intro s
  rw [State.statusWord_toNat]
  cases s.cause <;> rfl

theorem Entry.seen_of_specified {e : Entry} (h : e.specified = true) (draw : Nat) : e.seen draw = e.val := if_pos h

/-- A window word of four specified entries is their sum, the lowest index at weight 1 (R33, R34). -/
theorem ByteFile.windowWord_toNat {f : ByteFile} {j : Nat} (draw : Nat)
    (h : ∀ k, k < 4 → (ByteFile.entry f (4 * j + k)).specified = true) :
    (ByteFile.windowWord f j draw).toNat =
      (ByteFile.entry f (4 * j)).val.toNat + 256 * (ByteFile.entry f (4 * j + 1)).val.toNat +
        65536 * (ByteFile.entry f (4 * j + 2)).val.toNat + 16777216 * (ByteFile.entry f (4 * j + 3)).val.toNat := by
  have h0 : (ByteFile.entry f (4 * j)).specified = true := h 0 (by omega)
  rw [ByteFile.windowWord, Entry.seen_of_specified h0, Entry.seen_of_specified (h 1 (by omega)),
    Entry.seen_of_specified (h 2 (by omega)), Entry.seen_of_specified (h 3 (by omega))]
  simp only [toNat_append_eq_add]
  omega

/-! ## Reading a register -/

theorem State.readValue_of_idle {s : State} (h : s.inFlight = none) (off : WordOff) :
    s.readValue off = s.registerValue off := by
  simp [State.readValue, State.busy, h]

theorem State.readValue_status (s : State) : s.readValue offStatus = s.statusWord := by
  simp [State.readValue, State.registerValue]

/-- Above `RESULT` there are the two windows and nothing else (R23, R35). -/
theorem State.registerValue_above_result (s : State) {off : WordOff} (h : 9 ≤ off.toNat) : s.registerValue off =
    if 64 ≤ off.toNat ∧ off.toNat < 128 then ByteFile.windowWord s.lv (off.toNat - 64) s.draws
    else if 128 ≤ off.toNat ∧ off.toNat < 192 then ByteFile.windowWord s.db (off.toNat - 128) s.draws
    else 0 := by
  have hne : ∀ o : WordOff, o.toNat < 9 → off ≠ o := by
    rintro o ho rfl
    omega
  rw [State.registerValue, if_neg (hne offStatus (by decide)), if_neg (hne offVsize (by decide)),
    if_neg (hne offVcount (by decide)), if_neg (hne offGlen (by decide)), if_neg (hne offSrc (by decide)),
    if_neg (hne offDst (by decide)), if_neg (hne offDend (by decide)), if_neg (hne offResult (by decide))]
  rfl

/-- The offset of word `j` of a window, by its number (R23). -/
theorem toNat_windowOffset {base : WordOff} {j : Nat} (h : base.toNat + j < 256) :
    (base + BitVec.ofNat 8 j).toNat = base.toNat + j := by
  rw [BitVec.toNat_add, BitVec.toNat_ofNat]
  omega

/-- `LVW[j]` is word `j` of `LV` (R33). -/
theorem State.registerValue_lvw (s : State) {j : Nat} (hj : j < 64) :
    s.registerValue (offLvw + BitVec.ofNat 8 j) = ByteFile.windowWord s.lv j s.draws := by
  have hoff : (offLvw + BitVec.ofNat 8 j).toNat = 64 + j := toNat_windowOffset (base := 64#8) (show 64 + j < 256 by omega)
  rw [s.registerValue_above_result (by omega), if_pos (by omega), hoff, Nat.add_sub_cancel_left]

/-- `DBW[j]` is word `j` of `DB` (R34). -/
theorem State.registerValue_dbw (s : State) {j : Nat} (hj : j < 64) :
    s.registerValue (offDbw + BitVec.ofNat 8 j) = ByteFile.windowWord s.db j s.draws := by
  have hoff : (offDbw + BitVec.ofNat 8 j).toNat = 128 + j := toNat_windowOffset (base := 128#8) (show 128 + j < 256 by omega)
  rw [s.registerValue_above_result (by omega), if_neg (by omega), if_pos (by omega), hoff, Nat.add_sub_cancel_left]

/-- Settles O34: a window offset selects its word, which is the sum of its four entries. -/
theorem windowsReadEntries : Obligations.WindowsReadEntries := by
  intro s j hj hidle p hp hspec
  rw [State.readValue_of_idle hidle, ← ByteFile.windowWord_toNat s.draws hspec]
  simp only [List.mem_cons, List.not_mem_nil, or_false] at hp
  rcases hp with rfl | rfl
  · rw [s.registerValue_lvw hj]
  · rw [s.registerValue_dbw hj]

/-! ## Writing a register -/

/-- A write at an offset that is not that of a writable register is ignored (R35). -/
theorem regWrite_of_not_writable {off : WordOff} (h : off.toNat < 2 ∨ 8 ≤ off.toNat) (v : Word) (s : State) :
    regWrite off v s = s := by
  have hne : ∀ o : WordOff, 2 ≤ o.toNat ∧ o.toNat < 8 → off ≠ o := by
    rintro o ho rfl
    omega
  simp only [regWrite, if_neg (hne offVsize (by decide)), if_neg (hne offVcount (by decide)),
    if_neg (hne offGlen (by decide)), if_neg (hne offSrc (by decide)), if_neg (hne offDst (by decide)),
    if_neg (hne offDend (by decide)), ite_self]

theorem regWrite_of_busy {s : State} (h : s.busy = true) (off : WordOff) (v : Word) : regWrite off v s = s := by
  simp [regWrite, h]

theorem writeRegister_cmd (c : Word) (s : State) : writeRegister offCmd c s = writeCommand c s := rfl

/-- At an offset other than that of `CMD` the block stores the word or ignores it (R169). -/
theorem writeRegister_of_ne_cmd {off : WordOff} (h : off ≠ offCmd) (v : Word) (s : State) :
    writeRegister off v s = .next (regWrite off v s) := if_neg h

/-- Settles O32: reserved offsets lie outside the map on both sides. -/
theorem reservedAndReadOnlyRegisters : Obligations.ReservedAndReadOnlyRegisters := by
  refine ⟨fun s off hidle hoff => ?_, fun s off v hoff => ?_, ?_⟩
  · rw [State.readValue_of_idle hidle]
    rcases hoff with hoff | hoff
    · obtain rfl : off = offCmd := BitVec.eq_of_toNat_eq hoff
      rfl
    · rw [State.registerValue_above_result s (by omega)]
      rw [if_neg (by omega), if_neg (by omega)]
  · have hcmd : off ≠ offCmd := by
      rintro rfl
      exact absurd hoff (by decide)
    rw [writeRegister_of_ne_cmd hcmd, regWrite_of_not_writable (by omega)]
  · rintro s t off ⟨⟩
    rfl

/-! ## What a register write stores -/

theorem toNat_low9 (v : Word) : ((v.extractLsb' 0 9).setWidth 32).toNat = v.toNat % 512 := by
  rw [BitVec.toNat_setWidth, BitVec.extractLsb'_toNat, Nat.shiftRight_zero]
  omega

section WritableBlock

variable {s : State} (hrst : s.rst = false) (hidle : s.inFlight = none)

include hrst hidle

theorem State.writable : (s.rst || s.busy) = false := by simp [State.busy, hrst, hidle]

theorem writeRegister_vsize (v : Word) : writeRegister offVsize v s = .next (s.writeVsize v) := by
  rw [writeRegister_of_ne_cmd (by decide), regWrite, State.writable hrst hidle]
  rfl

theorem writeRegister_vcount (v : Word) :
    writeRegister offVcount v s = .next { s with vcount := v.extractLsb' 0 9 } := by
  rw [writeRegister_of_ne_cmd (by decide), regWrite, State.writable hrst hidle]
  rfl

theorem writeRegister_glen (v : Word) : writeRegister offGlen v s = .next { s with glen := v.extractLsb' 0 9 } := by
  rw [writeRegister_of_ne_cmd (by decide), regWrite, State.writable hrst hidle]
  rfl

theorem writeRegister_src (v : Word) : writeRegister offSrc v s = .next { s with src := addrBits s.cfg v.toNat } := by
  rw [writeRegister_of_ne_cmd (by decide), regWrite, State.writable hrst hidle]
  rfl

theorem writeRegister_dst (v : Word) : writeRegister offDst v s = .next { s with dst := addrBits s.cfg v.toNat } := by
  rw [writeRegister_of_ne_cmd (by decide), regWrite, State.writable hrst hidle]
  rfl

theorem writeRegister_dend (v : Word) : writeRegister offDend v s = .next { s with dend := addrBits s.cfg v.toNat } := by
  rw [writeRegister_of_ne_cmd (by decide), regWrite, State.writable hrst hidle]
  rfl

end WritableBlock

/-- An idle block reads back the low nine bits it stored in a size register (R26 to R28). -/
theorem State.readValue_toNat_low9 {t : State} {off : WordOff} {v : Word} (hidle : t.inFlight = none)
    (hvalue : t.registerValue off = (v.extractLsb' 0 9).setWidth 32) : (t.readValue off).toNat = v.toNat % 512 := by
  rw [State.readValue_of_idle hidle, hvalue, toNat_low9]

/-- An idle block reads back the `AW` bits it stored in an address register (R29 to R31). -/
theorem State.readValue_toNat_addrBits {t : State} {off : WordOff} {v : Word} (haw : t.cfg.aw ≤ 32)
    (hidle : t.inFlight = none) (hvalue : t.registerValue off = addrBits t.cfg v.toNat) :
    (t.readValue off).toNat = v.toNat % 2 ^ t.cfg.aw := by
  rw [State.readValue_of_idle hidle, hvalue, addrBits_toNat haw]

/-- Settles O31: the store of each register, and what is read of it. -/
theorem readWriteRegistersReadBack : Obligations.ReadWriteRegistersReadBack := by
  intro s v hrst hidle haw
  refine ⟨fun off hoff => ?_, fun off hoff => ?_⟩
  · simp only [List.mem_cons, List.not_mem_nil, or_false] at hoff
    rcases hoff with rfl | rfl
    · exact ⟨_, writeRegister_vcount hrst hidle v, State.readValue_toNat_low9 hidle rfl, rfl, fun _ => rfl,
        fun h => absurd h (by decide)⟩
    · exact ⟨_, writeRegister_glen hrst hidle v, State.readValue_toNat_low9 hidle rfl, rfl,
        fun h => absurd h (by decide), fun _ => rfl⟩
  · simp only [List.mem_cons, List.not_mem_nil, or_false] at hoff
    rcases hoff with rfl | rfl | rfl
    · exact ⟨_, writeRegister_src hrst hidle v, State.readValue_toNat_addrBits haw hidle rfl, rfl,
        fun h => absurd rfl h, fun _ => rfl, fun _ => rfl⟩
    · exact ⟨_, writeRegister_dst hrst hidle v, State.readValue_toNat_addrBits haw hidle rfl, rfl,
        fun _ => rfl, fun h => absurd rfl h, fun _ => rfl⟩
    · exact ⟨_, writeRegister_dend hrst hidle v, State.readValue_toNat_addrBits haw hidle rfl, rfl,
        fun _ => rfl, fun _ => rfl, fun h => absurd rfl h⟩

/-! ## Commands that are decoded, ignored, or end by an Err -/

theorem decodeCommand_ok {c : Word} {i : Instr} (h : decodeCommand c = .ok i) :
    ∃ r ∈ commandRows, r.selects c = true ∧ r.build c = i := by
  unfold decodeCommand at h
  split at h
  · rename_i r hr
    cases h
    exact ⟨r, List.mem_of_find?_eq_some hr, List.find?_some (p := fun r : CommandRow => r.selects c) hr, rfl⟩
  · split at h <;> cases h

/-- A word of `CMD` decodes to a command, never to a row of the wire format (R71). -/
theorem isCommand_of_decodeCommand {c : Word} {i : Instr} (h : decodeCommand c = .ok i) : isCommand i = true := by
  obtain ⟨r, hr, -, rfl⟩ := decodeCommand_ok h
  have hrows : ∀ r ∈ commandRows, isCommand (r.build c) = true := by simp [commandRows, isCommand]
  exact hrows r hr

/-- SEED has one word (R71). -/
theorem eq_of_decodeCommand_seed {c : Word} (h : decodeCommand c = .ok .seed) : c = 0x00000002 := by
  obtain ⟨r, hr, hsel, hbuild⟩ := decodeCommand_ok h
  have hrows : ∀ r ∈ commandRows, r.build c = .seed → r.mask = BitVec.allOnes 32 ∧ r.pattern = 0x00000002 := by
    simp [commandRows]
  obtain ⟨hmask, hpattern⟩ := hrows r hr hbuild
  rw [CommandRow.selects, hmask, hpattern, BitVec.and_allOnes] at hsel
  exact eq_of_beq hsel

/-- A command is its rule under acceptance and completion (R165). -/
theorem exec_eq_command {i : Instr} (hi : isCommand i = true) : ∃ op, ∀ s, exec i s = command (commandWord i) op s := by
  cases i with
  | nop => exact ⟨fun r => .next (r.setResult 0), fun _ => rfl⟩
  | clr => exact ⟨fun r => .next r.clearFailure, fun _ => rfl⟩
  | zz8 a => exact ⟨fun r => .next (r.setResult ((zigzag8 a).setWidth 32)), fun _ => rfl⟩
  | dz8 a b => exact ⟨fun r => .next (r.setResult ((delta8 a b).setWidth 32)), fun _ => rfl⟩
  | seed | pack1 | pack2 | pack4 | pack8 | encg | encb => exact ⟨_, fun _ => rfl⟩
  | width1 | width2 | width4 | width8 | formatV1 => cases hi

theorem exec_of_ignored {i : Instr} {s : State} (hi : isCommand i = true) (h : s.ignoresCommand (commandWord i) = true) :
    exec i s = .next s := by
  obtain ⟨op, hop⟩ := exec_eq_command hi
  rw [hop, command_of_ignored h]

theorem ignoresCommand_of_busy {s : State} (h : s.busy = true) (c : Word) : s.ignoresCommand c = true := by
  simp [State.ignoresCommand, h]

/-- A busy block ignores a write to any register, `CMD` included (R36). -/
theorem writeRegister_of_busy {s : State} (h : s.busy = true) (off : WordOff) (v : Word) :
    writeRegister off v s = .next s := by
  by_cases hoff : off = offCmd
  · rw [hoff, writeRegister_cmd, writeCommand]
    split
    · rename_i i hi
      exact exec_of_ignored (isCommand_of_decodeCommand hi) (ignoresCommand_of_busy h _)
    · exact command_of_ignored (ignoresCommand_of_busy h v)
  · rw [writeRegister_of_ne_cmd hoff, regWrite_of_busy h]

/-- Settles O33: acceptance changes two bits of `STATUS`, and a busy block ignores every write. -/
theorem busyBlockIgnoresWrites : Obligations.BusyBlockIgnoresWrites := by
  intro s c hacc
  have hstart : startCommand c s = s.accept c := by simp [startCommand, hacc]
  have hidle : s.inFlight.isSome = false := by
    simp only [State.ignoresCommand, State.busy, Bool.or_eq_false_iff] at hacc
    exact hacc.1.2
  simp only [hstart]
  refine ⟨?_, writeRegister_of_busy (s := s.accept c) rfl⟩
  rw [State.readValue_status, State.statusWord_toNat, State.statusWord_toNat, hidle]
  simp only [State.accept_inFlight, State.accept_done, State.accept_fail, State.accept_err, State.accept_lvvalid,
    State.accept_cause, Option.isSome_some, Bool.toNat_true, Bool.toNat_false]
  omega

/-- A command that a ready block accepts and whose first failing check is `c` ends by `Err(c)` (R194). -/
theorem checkedCommand_of_error {i : Instr} {op : State → Result} {s : State} {c : Cause} (hs : s.ready)
    (h : firstError i s = some c) :
    command (commandWord i) (checked i op) s = .next { s with err := true, cause := c, result := 0, done := true } := by
  have hacc := ignoresCommand_of_ready hs (commandWord i)
  have herr : checked i op (s.accept (commandWord i)) = .next ((s.accept (commandWord i)).raiseErr c) :=
    checked_of_error ((firstError_accept i s _).trans h)
  obtain ⟨-, hidle, -, -⟩ := hs
  rw [command_of_accepted hacc herr, State.complete, ← hidle]
  rfl

/-- The legal record sizes are the 64 multiples of 4 up to 256 (R26). -/
theorem legalRecordSize_iff {n : Nat} : legalRecordSize n = true ↔ ∃ k, 1 ≤ k ∧ k ≤ 64 ∧ n = 4 * k := by
  simp only [legalRecordSize, Bool.and_eq_true, decide_eq_true_eq]
  constructor
  · rintro ⟨⟨hpos, hmax⟩, hmod⟩
    exact ⟨n / 4, by omega, by omega, by omega⟩
  · rintro ⟨k, hpos, hmax, rfl⟩
    omega

/-- Settles O30: the store of `VSIZE`, its legal values, and the first check of SEED and of ENCB. -/
theorem vsizeRegister : Obligations.VsizeRegister := by
  refine ⟨fun s v hrst hidle => ⟨writeRegister_vsize hrst hidle v, fun t h => ?_⟩, fun s => legalRecordSize_iff,
    fun s hs hillegal => ⟨?_, ?_⟩⟩
  · rw [writeRegister_vsize hrst hidle v] at h
    cases h
    exact State.readValue_toNat_low9 hidle rfl
  · exact checkedCommand_of_error (i := .seed) hs (by simp [firstError, firstFailing, hillegal])
  · exact checkedCommand_of_error (i := .encb) hs (by simp [firstError, firstFailing, hillegal])

end Sys2Proof.Machine

/-! Lemmas and obligations: the state after reset, and the head of the script as the place of fetch (R41, R74). -/

namespace Sys2Proof.Machine

theorem State.statusWord_blockReset (u : State) : u.blockReset.statusWord = 0 :=
  BitVec.eq_of_toNat_eq (u.blockReset.statusWord_toNat.trans rfl)

/-- A block in its reset state has every register 0 and every entry unspecified (R41). -/
theorem State.registers_of_blockReset {u : State} (h : u.blockReset = u) :
    u.statusWord = 0 ∧ u.vsize = 0 ∧ u.vcount = 0 ∧ u.glen = 0 ∧ u.src = 0 ∧ u.dst = 0 ∧ u.dend = 0 ∧ u.result = 0 ∧
      ∀ k, k < 256 → (ByteFile.entry u.lv k).specified = false ∧ (ByteFile.entry u.db k).specified = false := by
  rw [← h]
  exact ⟨u.statusWord_blockReset, rfl, rfl, rfl, rfl, rfl, rfl, rfl, fun k _ => by simp⟩

theorem resetBlock_of_idle {s : State} (h : s.inFlight = none) :
    resetBlock s = .next { s.blockReset with rst := true } := by
  simp [resetBlock, State.windowInFlight, State.commandInFlight, h]

/-- Settles O35: both states are their own reset state. -/
theorem resetValues : Obligations.ResetValues := by
  intro s hidle
  refine ⟨_, resetBlock_of_idle hidle, rfl, fun u hu => ?_⟩
  simp only [List.mem_cons, List.not_mem_nil, or_false] at hu
  rcases hu with rfl | rfl
  · exact State.registers_of_blockReset rfl
  · exact State.registers_of_blockReset rfl

/-- Settles O37: the parts of the invariant hold of the reset values. -/
theorem resetMeetsInvariant : Obligations.ResetMeetsInvariant := by
  have hspace : SpaceInv Config.recommended [] 0 0 0 := ⟨by decide, by decide, nofun, by decide, by decide, by decide⟩
  exact inv_of_idle ⟨hspace, failureInv_none, nofun⟩ rfl rfl

theorem writeCommand_of_decoded {c : Word} {i : Instr} (h : decodeCommand c = .ok i) (s : State) :
    writeCommand c s = exec i s := by simp [writeCommand, h]

theorem perform_tag_of_decoded {b : Byte} {i : Instr} (h : decodeTag b = .ok i) (s : State) :
    perform (.tag b) s = exec i s := by simp [perform, h]

theorem eq_ok_of_toOption {ε α : Type} {x : Except ε α} {a : α} (h : x.toOption = some a) : x = .ok a := by
  cases x <;> cases h
  rfl

/-- The action that brings a table word to its agent runs the instruction the word stands for (log 14). -/
theorem perform_actionOfTableWord {nbits w : Nat} {i : Instr} (h : decodeTableWord nbits w = some i) (s : State) :
    perform (actionOfTableWord nbits w) s = exec i s := by
  simp only [decodeTableWord] at h
  simp only [actionOfTableWord]
  split_ifs at h ⊢
  · exact writeCommand_of_decoded (eq_ok_of_toOption h) s
  · exact perform_tag_of_decoded (eq_ok_of_toOption h) s
  · cases h
    rfl

/-- Settles O6: the head of the script reaches the agent that runs it. -/
theorem stepRunsDecodedInstruction : Obligations.StepRunsDecodedInstruction := by
  refine ⟨fun s c i rest hs hi => ?_, fun s b i rest hs hi => ?_, fun s c rest hs => ?_, fun s nbits w i hi => ?_⟩
  · rw [step_of_script hs]
    exact writeCommand_of_decoded hi _
  · rw [step_of_script hs]
    exact perform_tag_of_decoded hi _
  · rw [step_of_script hs]
    rfl
  · rw [step_of_script (s := s.withFetchWord nbits w) rfl]
    exact perform_actionOfTableWord hi s

end Sys2Proof.Machine

/-! Lemmas and obligations: what an instruction leaves of the failure, of `LVVALID` and of memory (R21, R25, R42, R228). -/

namespace Sys2Proof.Machine

/-- `t` differs from `s` at most in the memory and in what is not the block's. -/
def BlockKept (s t : State) : Prop := { s.withHost t with mem := t.mem } = t

section BlockKept

variable {s t : State} (h : BlockKept s t)

include h

theorem BlockKept.fail : t.fail = s.fail := (congrArg State.fail h).symm

theorem BlockKept.err : t.err = s.err := (congrArg State.err h).symm

theorem BlockKept.cause : t.cause = s.cause := (congrArg State.cause h).symm

theorem BlockKept.lvvalid : t.lvvalid = s.lvvalid := (congrArg State.lvvalid h).symm

end BlockKept

theorem takeGroup_blockKept {b : Width} {s t : State} (h : takeGroup b s = .next t) : BlockKept s t := by
  rw [takeGroup_next h]
  rfl

/-- The rows of the wire format are not the block's (R80, R87). -/
theorem exec_blockKept {i : Instr} {s t : State} (hi : isCommand i = false) (h : exec i s = .next t) : BlockKept s t := by
  cases i with
  | nop | clr | seed | zz8 | dz8 | pack1 | pack2 | pack4 | pack8 | encg | encb => cases hi
  | width1 => exact takeGroup_blockKept (b := .w1) h
  | width2 => exact takeGroup_blockKept (b := .w2) h
  | width4 => exact takeGroup_blockKept (b := .w4) h
  | width8 => exact takeGroup_blockKept (b := .w8) h
  | formatV1 =>
    rcases execFormatV1_next h with ⟨-, rfl⟩ | ⟨-, rfl⟩
    · rfl
    · rfl

/-- Settles O26: a command other than CLR is ignored over a pending failure, and the other rows do not reach the flags. -/
theorem onlyClrClearsFailure : Obligations.OnlyClrClearsFailure := by
  intro s t i hpending hclr h
  cases hi : isCommand i with
  | false =>
    have hkept := exec_blockKept hi h
    exact ⟨hkept.fail, hkept.err, hkept.cause⟩
  | true =>
    have hignored : s.ignoresCommand (commandWord i) = true := by
      by_contra hacc
      obtain ⟨-, -, hfail, herr⟩ := ready_of_not_ignored (Bool.eq_false_of_not_eq_true hacc) (commandWord_ne_clr hi hclr)
      simp [hfail, herr] at hpending
    rw [exec_of_ignored hi hignored] at h
    cases h
    exact ⟨rfl, rfl, rfl⟩

/-! ## What the rule of each command leaves of `LVVALID` and of memory -/

/-- What the rule of the command `i` can leave: an effect of the list, `LVVALID` by SEED only, and memory only of a command
with a window and no failing check (R21, R42, R52). -/
structure CommandEffect (i : Instr) (s u : State) : Prop where
  rule : RuleEffect s u
  lvvalid : i ≠ .seed → u.lvvalid = s.lvvalid
  mem : usesWindow i = false ∨ (firstError i s).isSome = true → u.mem = s.mem

/-- The checks of a command change none of the two. -/
theorem commandEffect_of_checked {i : Instr} {op : State → Result} {s u : State} (hready : s.fail = false)
    (hop : firstError i s = none → op s = .next u → CommandEffect i s u) (h : checked i op s = .next u) :
    CommandEffect i s u := by
  rcases checked_next h with ⟨c, hc, rfl⟩ | ⟨hok, -, hu⟩
  · exact ⟨.err (ofErr_of_firstError hc) hready, fun _ => rfl, fun _ => rfl⟩
  · exact hop hok hu

/-- An operation with a window that passed its checks may write memory. -/
theorem commandEffect_of_window {i : Instr} {s u : State} (hw : usesWindow i = true) (hok : firstError i s = none)
    (hrule : RuleEffect s u) (hlv : u.lvvalid = s.lvvalid) : CommandEffect i s u :=
  ⟨hrule, fun _ => hlv, fun h => by simp [hw, hok] at h⟩

theorem packOperation_lvvalid {b : Width} {s u : State} (h : packOperation b s = .next u) : u.lvvalid = s.lvvalid := by
  rcases packOperation_next h with ⟨out, -, rfl⟩ | ⟨-, ⟨-, rfl⟩ | ⟨-, rfl⟩⟩ <;> rfl

theorem packOperation_commandEffect {i : Instr} {b : Width} (hw : usesWindow i = true) (r u : State) (herr : r.err = false)
    (hok : firstError i r = none) (h : packOperation b r = .next u) : CommandEffect i r u :=
  commandEffect_of_window hw hok (packOperation_effect herr h) (packOperation_lvvalid h)

theorem encgOperation_lvvalid {s u : State} (h : encgOperation s = .next u) : u.lvvalid = s.lvvalid := by
  rcases encgOperation_next h with ⟨out, -, rfl⟩ | ⟨-, rfl⟩ <;> rfl

theorem encbOperation_lvvalid {s u : State} (h : encbOperation s = .next u) : u.lvvalid = s.lvvalid := by
  rcases encbOperation_next h with ⟨out, lv', -, rfl⟩ | ⟨-, rfl⟩ <;> rfl

/-- A command that answers a next state was ignored, or its rule ran and it completed (R165). -/
def CommandOutcome (i : Instr) (s t : State) : Prop :=
  (s.ignoresCommand (commandWord i) = true ∧ t = s) ∨
    (s.ignoresCommand (commandWord i) = false ∧ ∃ u, CommandEffect i (s.accept (commandWord i)) u ∧ t = u.complete)

theorem commandOutcome_of_rule {i : Instr} {op : State → Result} {s t : State}
    (hop : s.ignoresCommand (commandWord i) = false → ∀ u, op (s.accept (commandWord i)) = .next u →
      CommandEffect i (s.accept (commandWord i)) u)
    (h : command (commandWord i) op s = .next t) : CommandOutcome i s t :=
  (command_next h).imp id fun ⟨hacc, u, hu, ht⟩ => ⟨hacc, u, hop hacc u hu, ht⟩

/-- A command without checks that only gives a result. -/
theorem commandOutcome_of_result {i : Instr} {v : Word} {s t : State}
    (h : command (commandWord i) (fun r => .next (r.setResult v)) s = .next t) : CommandOutcome i s t :=
  commandOutcome_of_rule (fun _ _ hu => by cases hu; exact ⟨.result v, fun _ => rfl, fun _ => rfl⟩) h

theorem commandOutcome_of_checked {i : Instr} {op : State → Result} {s t : State} (hi : isCommand i = true)
    (hclr : i ≠ .clr)
    (hop : ∀ r u, r.err = false → firstError i r = none → op r = .next u → CommandEffect i r u)
    (h : command (commandWord i) (checked i op) s = .next t) : CommandOutcome i s t :=
  commandOutcome_of_rule (fun hacc u hu => by
    obtain ⟨-, -, hfail, herr⟩ := ready_of_not_ignored hacc (commandWord_ne_clr hi hclr)
    exact commandEffect_of_checked hfail (hop _ u herr) hu) h

theorem exec_commandOutcome {i : Instr} {s t : State} (hi : isCommand i = true) (h : exec i s = .next t) :
    CommandOutcome i s t := by
  cases i with
  | nop => exact commandOutcome_of_result (v := 0) h
  | clr =>
    exact commandOutcome_of_rule (i := .clr) (op := fun r => .next r.clearFailure)
      (fun _ _ hu => by cases hu; exact ⟨.cleared, fun _ => rfl, fun _ => rfl⟩) h
  | seed =>
    exact commandOutcome_of_checked rfl nofun (fun _ _ _ hok hu =>
      ⟨seedOperation_effect hok hu, fun hne => absurd rfl hne, fun _ => by cases hu; rfl⟩) h
  | zz8 a => exact commandOutcome_of_result (v := (zigzag8 a).setWidth 32) h
  | dz8 a b => exact commandOutcome_of_result (v := (delta8 a b).setWidth 32) h
  | pack1 => exact commandOutcome_of_checked rfl nofun (packOperation_commandEffect rfl) h
  | pack2 => exact commandOutcome_of_checked rfl nofun (packOperation_commandEffect rfl) h
  | pack4 => exact commandOutcome_of_checked rfl nofun (packOperation_commandEffect rfl) h
  | pack8 => exact commandOutcome_of_checked rfl nofun (packOperation_commandEffect rfl) h
  | encg =>
    exact commandOutcome_of_checked rfl nofun (fun _ _ herr hok hu =>
      commandEffect_of_window rfl hok (encgOperation_effect herr hu) (encgOperation_lvvalid hu)) h
  | encb =>
    exact commandOutcome_of_checked rfl nofun (fun _ _ herr hok hu =>
      commandEffect_of_window rfl hok (encbOperation_effect herr hu) (encbOperation_lvvalid hu)) h
  | width1 | width2 | width4 | width8 | formatV1 => cases hi

/-- A store at the cursor of at most as many bytes as the capacity reads as before outside the window (R31, R42). -/
theorem read_write_outside_window {s : State} {v : List Byte} (hfits : v.length ≤ s.capacity) {a : Nat}
    (ha : ¬s.inWindow a) : (s.mem.write s.dst.toNat v).read a = s.mem.read a := by
  have hcap : s.capacity = s.dend.toNat - s.dst.toNat := rfl
  rw [Memory.read_write, if_neg (by omega)]

theorem RuleEffect.keepsOutsideWindow {s u : State} (h : RuleEffect s u) : keepsOutsideWindow s u := by
  cases h with
  | result | cleared | err | seeded => exact fun _ _ => rfl
  | @produced v db out hfits =>
    have hlen : (out ++ s.freeBytes (s.capacity - out.length)).length = s.capacity := by
      rw [List.length_append, State.freeBytes_length, Nat.add_sub_cancel' hfits]
    exact fun _ ha => read_write_outside_window hlen.le ha
  | failed => exact fun _ ha => read_write_outside_window (State.freeBytes_length s s.capacity).le ha

/-- Settles O28: the rule writes at the cursor at most, and not at all without a window or with a failing check. -/
theorem commandsWriteOnlyTheirWindow : Obligations.CommandsWriteOnlyTheirWindow := by
  intro s t i hi h
  rcases exec_commandOutcome hi h with ⟨-, rfl⟩ | ⟨hacc, u, hu, rfl⟩
  · exact ⟨fun _ _ => rfl, fun _ _ => rfl⟩
  · refine ⟨hu.rule.keepsOutsideWindow, fun hquiet a => congrArg (Memory.read · a) (hu.mem ?_)⟩
    simpa [hacc] using hquiet

/-! ## `LVVALID` over a step -/

theorem exec_lvvalid {i : Instr} {s t : State} (hi : i ≠ .seed) (h : exec i s = .next t) : t.lvvalid = s.lvvalid := by
  cases hc : isCommand i with
  | false => exact (exec_blockKept hc h).lvvalid
  | true =>
    rcases exec_commandOutcome hc h with ⟨-, rfl⟩ | ⟨-, u, hu, rfl⟩
    · rfl
    · exact hu.lvvalid hi

/-- SEED is ignored, or it is run by a ready block and ends by an Err or with `LVVALID` 1 (R21, R157). -/
theorem execSeed_next {s t : State} (h : exec .seed s = .next t) :
    (s.ignoresCommand 0x00000002 = true ∧ t = s) ∨
      (s.ignoresCommand 0x00000002 = false ∧
        ((t.err = true ∧ t.lvvalid = s.lvvalid) ∨ (t.lvvalid = true ∧ t.fail = false ∧ t.err = false))) := by
  rcases command_next h with hignored | ⟨hacc, u, hu, rfl⟩
  · exact .inl hignored
  · refine .inr ⟨hacc, ?_⟩
    obtain ⟨-, -, hfail, herr⟩ := ready_of_not_ignored hacc (by decide)
    rcases checked_next hu with ⟨c, -, rfl⟩ | ⟨-, -, hu⟩
    · exact .inl ⟨rfl, rfl⟩
    · cases hu
      exact .inr ⟨rfl, hfail, herr⟩

/-- Only a write of SEED's word to `CMD` changes `LVVALID`, and it sets it (R21). -/
theorem writeCommand_lvvalid {c : Word} {s t : State} (h : writeCommand c s = .next t) (hne : t.lvvalid ≠ s.lvvalid) :
    t.lvvalid = true ∧ c = 0x00000002 ∧ t.fail = false ∧ t.err = false := by
  unfold writeCommand at h
  split at h
  · rename_i i hi
    obtain rfl : i = .seed := by
      by_contra hseed
      exact hne (exec_lvvalid hseed h)
    rcases execSeed_next h with ⟨-, rfl⟩ | ⟨-, ⟨-, hlv⟩ | ⟨hlv, hfail, herr⟩⟩
    · exact absurd rfl hne
    · exact absurd hlv hne
    · exact ⟨hlv, eq_of_decodeCommand_seed hi, hfail, herr⟩
  · rcases command_next h with ⟨-, rfl⟩ | ⟨-, u, hu, rfl⟩
    · exact absurd rfl hne
    · cases hu
      exact absurd rfl hne

/-- Of the writes to the other registers only one to `VSIZE` changes `LVVALID`, and it clears it (R21, R26). -/
theorem regWrite_lvvalid {off : WordOff} {v : Word} {s : State} (hne : (regWrite off v s).lvvalid ≠ s.lvvalid) :
    (regWrite off v s).lvvalid = false ∧ s.rst = false ∧ s.inFlight = none ∧ off = offVsize := by
  by_cases hoff : off = offVsize
  · rcases regWrite_cases off v s with h | ⟨hrst, hidle, -⟩
    · exact absurd (congrArg State.lvvalid h) hne
    · have hwrite : regWrite off v s = s.writeVsize v := by
        subst hoff
        rw [regWrite, State.writable hrst hidle]
        rfl
      rw [hwrite]
      exact ⟨rfl, hrst, hidle, hoff⟩
  · refine absurd ?_ hne
    simp only [regWrite, if_neg hoff]
    split_ifs <;> rfl

theorem writeRegister_lvvalid {off : WordOff} {v : Word} {s t : State} (h : writeRegister off v s = .next t)
    (hne : t.lvvalid ≠ s.lvvalid) :
    (t.lvvalid = true ∧ off = offCmd ∧ v = 0x00000002 ∧ t.fail = false ∧ t.err = false) ∨
      (t.lvvalid = false ∧ s.rst = false ∧ s.inFlight = none ∧ off = offVsize) := by
  by_cases hoff : off = offCmd
  · subst hoff
    obtain ⟨hlv, hv, hfail, herr⟩ := writeCommand_lvvalid h hne
    exact .inl ⟨hlv, rfl, hv, hfail, herr⟩
  · rw [writeRegister_of_ne_cmd hoff] at h
    cases h
    exact .inr (regWrite_lvvalid hne)

theorem completeInFlight_lvvalid {s t : State} (h : completeInFlight s = .next t) (hne : t.lvvalid ≠ s.lvvalid) :
    t.lvvalid = true ∧ s.inFlight = some 0x00000002 ∧ t.fail = false ∧ t.err = false := by
  cases hf : s.inFlight with
  | none =>
    rw [completeInFlight_of_none hf] at h
    cases h
    exact absurd rfl hne
  | some c =>
    rw [completeInFlight_of_some hf] at h
    obtain ⟨hlv, rfl, hfail, herr⟩ := writeCommand_lvvalid h hne
    exact ⟨hlv, rfl, hfail, herr⟩

/-- `WAIT` completes the command in flight, or is the host's (R74). -/
theorem hostWait_next {s t : State} (h : hostWait s = .next t) :
    completeInFlight { s with script := .wait :: s.script } = .next t ∨ BlockKept s t := by
  unfold hostWait at h
  split at h
  · exact .inl h
  · split at h <;> cases h <;> exact .inr rfl

theorem takeHeader_blockKept {groups : Nat} {s t : State} (h : takeHeader groups s = .next t) : BlockKept s t := by
  obtain ⟨hgo, -, -, -⟩ := hostAccess_next h
  cases hgo
  rfl

theorem beginStream_blockKept {c : StreamCall} {s t : State} (h : beginStream c s = .next t) : BlockKept s t := by
  unfold beginStream at h
  split at h
  · cases h
    rfl
  · split at h <;> cases h
    rfl

theorem expectNoErr_blockKept {s t : State} (h : expectNoErr s = .next t) : BlockKept s t := by
  simp only [expectNoErr] at h
  split at h <;> cases h <;> rfl

theorem checkStatus_blockKept {s t : State} (h : checkStatus s = .next t) : BlockKept s t := by
  simp only [checkStatus] at h
  split at h
  · cases h
    rfl
  · exact expectNoErr_blockKept h

theorem finishCall_blockKept {s t : State} (h : finishCall s = .next t) : BlockKept s t := by
  simp only [finishCall] at h
  split at h
  · cases h
    rfl
  · obtain ⟨hstore, -, -, -⟩ := hostAccess_next h
    obtain ⟨hgo, -, -, -⟩ := hostAccess_next hstore
    cases hgo
    rfl

theorem startCommand_lvvalid (c : Word) (s : State) : (startCommand c s).lvvalid = s.lvvalid := by
  unfold startCommand
  split <;> rfl

theorem decodeSlot_ne_seed (c : BitVec 2) : decodeSlot c ≠ .seed := by revert c; decide

theorem decodeTag_ne_seed {b : Byte} {i : Instr} (h : decodeTag b = .ok i) : i ≠ .seed := by
  unfold decodeTag at h
  split at h <;> cases h
  nofun

theorem resetBlock_lvvalid {s t : State} (h : resetBlock s = .next t) : t.lvvalid = false := by
  rcases resetBlock_next h with ⟨-, rfl⟩ | ⟨-, rfl⟩ <;> rfl

/-- The ways in which a step from `s` to `t` changes `LVVALID`: SEED, a write to `VSIZE`, a reset (R21). -/
def LvvalidChange (s t : State) : Prop :=
  (t.lvvalid = true ∧ s.commandRun = some 0x00000002 ∧ t.fail = false ∧ t.err = false) ∨
    (t.lvvalid = false ∧ s.rst = false ∧ s.inFlight = none ∧ ∃ v, s.registerWritten = some (offVsize, v)) ∨
    (t.lvvalid = false ∧ s.script.head? = some .rstHigh)

theorem commandRun_of_registerWritten {s : State} {c : Word} (h : s.registerWritten = some (offCmd, c)) :
    s.commandRun = some c := by
  unfold State.commandRun
  split
  case h_4 => simp [h]
  all_goals
    rename_i hhead
    simp [State.registerWritten, hhead] at h

theorem lvvalidChange_of_writeRegister {s t : State} {rest : List HostAction} {off : WordOff} {v : Word}
    (hw : s.registerWritten = some (off, v)) (h : writeRegister off v { s with script := rest } = .next t)
    (hne : t.lvvalid ≠ s.lvvalid) : LvvalidChange s t := by
  rcases writeRegister_lvvalid h hne with ⟨hlv, rfl, rfl, hfail, herr⟩ | ⟨hlv, hrst, hidle, rfl⟩
  · exact .inl ⟨hlv, commandRun_of_registerWritten hw, hfail, herr⟩
  · exact .inr (.inl ⟨hlv, hrst, hidle, v, hw⟩)

theorem lvvalidChange_of_completion {s t : State} {script : List HostAction} (hrun : s.commandRun = s.inFlight)
    (h : completeInFlight { s with script := script } = .next t) (hne : t.lvvalid ≠ s.lvvalid) : LvvalidChange s t := by
  obtain ⟨hlv, hflight, hfail, herr⟩ := completeInFlight_lvvalid h hne
  exact .inl ⟨hlv, hrun.trans hflight, hfail, herr⟩

theorem perform_lvvalid {a : HostAction} {rest : List HostAction} {s t : State} (hs : s.script = a :: rest)
    (h : perform a { s with script := rest } = .next t) (hne : t.lvvalid ≠ s.lvvalid) : LvvalidChange s t := by
  cases a with
  | wr off v => exact lvvalidChange_of_writeRegister (by simp [State.registerWritten, hs]) h hne
  | busWr addr v =>
    simp only [perform] at h
    split at h
    · rename_i off hoff
      exact lvvalidChange_of_writeRegister (by simp [State.registerWritten, hs, hoff]) h hne
    · cases h
  | blockCompletes => exact lvvalidChange_of_completion (by simp [State.commandRun, hs]) h hne
  | wait =>
    rcases hostWait_next h with h | hkept
    · exact lvvalidChange_of_completion (by simp [State.commandRun, hs]) h hne
    · exact absurd hkept.lvvalid hne
  | rstHigh => exact .inr (.inr ⟨resetBlock_lvvalid h, by simp [hs]⟩)
  | rd off | rstLow | readAt addr | giveBack n =>
    cases h
    exact absurd rfl hne
  | memw addr bytes | memr addr n =>
    obtain ⟨hgo, -, -, -⟩ := hostAccess_next h
    cases hgo
    exact absurd rfl hne
  | start c =>
    cases h
    exact absurd (startCommand_lvvalid c _) hne
  | tag b =>
    simp only [perform] at h
    split at h
    · rename_i i hi
      exact absurd (exec_lvvalid (decodeTag_ne_seed hi) h) hne
    · cases h
  | slot c => exact absurd (exec_lvvalid (decodeSlot_ne_seed c) h) hne
  | readChannel groups => exact absurd (takeHeader_blockKept h).lvvalid hne
  | encodeStream c => exact absurd (beginStream_blockKept h).lvvalid hne
  | checkSeed => exact absurd (expectNoErr_blockKept h).lvvalid hne
  | checkBlock => exact absurd (checkStatus_blockKept h).lvvalid hne
  | finishStream => exact absurd (finishCall_blockKept h).lvvalid hne
  | busRd addr =>
    simp only [perform] at h
    split at h <;> cases h
    exact absurd rfl hne

theorem step_lvvalid {s t : State} (h : step s = .next t) (hne : t.lvvalid ≠ s.lvvalid) : LvvalidChange s t := by
  cases hs : s.script with
  | nil => exact lvvalidChange_of_completion (by simp [State.commandRun, hs]) (step_of_empty hs ▸ h) hne
  | cons a rest => exact perform_lvvalid hs (step_of_script hs ▸ h) hne

theorem State.statusWord_lvvalid (s : State) : s.statusWord.toNat / 16 % 2 = s.lvvalid.toNat := by
  have hbusy := Bool.toNat_lt s.inFlight.isSome
  have hdone := Bool.toNat_lt s.done
  have hfail := Bool.toNat_lt s.fail
  have herr := Bool.toNat_lt s.err
  have hlv := Bool.toNat_lt s.lvvalid
  rw [State.statusWord_toNat]
  omega

/-- `LVVALID` after SEED: as before, or set when SEED was neither ignored nor ended by an Err (R21). -/
theorem execSeed_lvvalid {s t : State} (h : exec .seed s = .next t) :
    t.lvvalid = (s.lvvalid || (!s.ignoresCommand 0x00000002 && !t.err)) := by
  rcases execSeed_next h with ⟨hignored, rfl⟩ | ⟨hacc, ⟨herr, hlv⟩ | ⟨hlv, -, herr⟩⟩
  · rw [hignored]
    simp
  · simp [hlv, herr]
  · rw [hlv, hacc, herr]
    simp

/-- Settles O25: what reset, SEED, the other instructions, a write to `VSIZE` and a step make of `LVVALID`. -/
theorem lvvalidSetBySeedClearedByVsize : Obligations.LvvalidSetBySeedClearedByVsize :=
  ⟨rfl, fun _ _ => resetBlock_lvvalid, State.statusWord_lvvalid, fun _ _ => execSeed_lvvalid,
    fun _ _ _ => exec_lvvalid, fun _ v hrst hidle => ⟨_, writeRegister_vsize hrst hidle v, rfl⟩,
    fun _ _ => step_lvvalid, fun s hs hvsize hvcount hlv =>
      checkedCommand_of_error (i := .encb) hs (by simp [firstError, firstFailing, hvsize, hvcount, hlv])⟩

end Sys2Proof.Machine

/-! Lemmas and obligations: the range check of the commands with a window, and the hand-off rule (R28, R60, R65, R142,
R199, R207). -/

namespace Sys2Proof.Machine

/-- The range check of an instruction with a window, written out (R65). -/
theorem rangeFails_iff {i : Instr} (hw : usesWindow i = true) (s : State) :
    rangeFails i s = true ↔
      2 ^ s.cfg.aw < s.src.toNat + sourceLength i s ∨ s.dend.toNat < s.dst.toNat ∨
        (s.dst.toNat < s.dend.toNat ∧ s.src.toNat < s.dend.toNat ∧ s.dst.toNat < s.src.toNat + sourceLength i s) := by
  simp only [rangeFails, hw, Bool.true_and, Bool.or_eq_true, Bool.and_eq_true, decide_eq_true_eq, and_assoc]

/-- The legal values of `GLEN` are the multiples of 16 from 16 to 256 (R28). -/
theorem State.glenLegal_iff (s : State) :
    s.glenLegal = true ↔ 0 < s.glen.toNat ∧ s.glen.toNat ≤ 256 ∧ s.glen.toNat % 16 = 0 := by
  simp only [State.glenLegal, Bool.and_eq_true, decide_eq_true_eq]
  simp only [groupSize]
  omega

/-- An instruction that a ready block is given and whose first failing check is `c` ends by `Err(c)` (R194). -/
theorem exec_of_error {i : Instr} {s : State} {c : Cause} (hs : s.ready) (h : firstError i s = some c) :
    exec i s = .next { s with err := true, cause := c, result := 0, done := true } := by
  cases i with
  | seed | pack1 | pack2 | pack4 | pack8 | encg | encb => exact checkedCommand_of_error hs h
  | nop | clr | zz8 _ | dz8 _ _ | width1 | width2 | width4 | width8 | formatV1 => cases h

/-- Settles O24: the PACK commands make the range check alone, ENCG makes it after the check of `GLEN`. -/
theorem rangeCheckRaisesErr : Obligations.RangeCheckRaisesErr := by
  intro s n hs err outOfRange
  refine ⟨?pack, ?encg⟩
  case pack =>
    rintro rfl hout i hi
    simp only [List.mem_cons, List.not_mem_nil, or_false] at hi
    rcases hi with rfl | rfl | rfl | rfl
    all_goals
      refine exec_of_error hs (if_pos ?_)
      exact (rangeFails_iff rfl s).mpr hout
  case encg =>
    rintro rfl
    refine ⟨fun hillegal => ?_, fun hpos hmax hmod hout => ?_⟩
    · have hglen : s.glenLegal = false := by
        rw [Bool.eq_false_iff, Ne, State.glenLegal_iff]
        omega
      exact exec_of_error hs (by simp [firstError, firstFailing, hglen])
    · have hglen : s.glenLegal = true := s.glenLegal_iff.mpr ⟨hpos, hmax, hmod⟩
      have hrange : rangeFails .encg s = true := (rangeFails_iff rfl s).mpr hout
      exact exec_of_error hs (by simp [firstError, firstFailing, hglen, hrange])

/-- A run of one byte meets `[lo, hi)` when its address lies there. -/
theorem meets_of_mem {a lo hi : Nat} (hlo : lo ≤ a) (hhi : a < hi) : meets a 1 lo hi = true := by
  simp only [meets, Bool.and_eq_true, decide_eq_true_eq]
  omega

/-- The command in flight is the one its word decodes to (R165). -/
theorem commandInFlight_of_decoded {s : State} {c : Word} {i : Instr} (hs : s.inFlight = some c)
    (hi : decodeCommand c = .ok i) : s.commandInFlight = some i := by
  simp [State.commandInFlight, hs, hi, Except.toOption]

/-- An access of a byte in the window of the command in flight breaks the hand-off rule (R60). -/
theorem handOffKept_of_inWindow {s : State} {i : Instr} (hi : s.commandInFlight = some i) (hw : usesWindow i = true)
    {a : Nat} (ha : s.inWindow a) (writes : Bool) : s.handOffKept a 1 writes = false := by
  simp [State.handOffKept, hi, hw, meets_of_mem ha.1 ha.2]

/-- A write of a byte in the source of the command in flight breaks the hand-off rule (R60). -/
theorem handOffKept_of_inSource {s : State} {i : Instr} (hi : s.commandInFlight = some i) {a : Nat}
    (hlo : s.src.toNat ≤ a) (hhi : a < s.src.toNat + sourceLength i s) : s.handOffKept a 1 true = false := by
  simp [State.handOffKept, hi, meets_of_mem hlo hhi]

/-- An access within the populated address space that breaks the hand-off rule is refused (R60, R207). -/
theorem hostAccess_of_broken {s : State} {a n : Nat} {writes : Bool} {go : Result} (hspace : a + n ≤ 2 ^ s.cfg.aw)
    (hpop : covers s.cfg a (a + n) = true) (hbroken : s.handOffKept a n writes = false) :
    hostAccess s a n writes go = .refused .handOffBroken := by
  have hin : ¬(0 < n ∧ 2 ^ s.cfg.aw < a + n) := by omega
  simp [hostAccess, hin, hpop, hbroken]

/-- Settles O59: the access is in range and populated, so the hand-off rule alone decides it. -/
theorem handOffRuleIsGuarded : Obligations.HandOffRuleIsGuarded := by
  intro s c i a b hflight hdec hspace hpop
  have hi := commandInFlight_of_decoded hflight hdec
  refine ⟨fun hw ha => ⟨?memw, ?memr⟩, fun hlo hhi => ?source⟩
  case memw => exact hostAccess_of_broken hspace hpop (handOffKept_of_inWindow hi hw ha true)
  case memr => exact hostAccess_of_broken hspace hpop (handOffKept_of_inWindow hi hw ha false)
  case source => exact hostAccess_of_broken hspace hpop (handOffKept_of_inSource hi hlo hhi)

end Sys2Proof.Machine

/-! Lemmas and obligations: a row of the opcode map selects the one word of its command, and the words of the commands are
the legal ones (R70 to R73, R80, R87, R90). -/

namespace Sys2Proof.Machine

/-! ## The rows are disjoint -/

/-- Two rows whose patterns differ under both masks select no common word. -/
theorem not_selects_both {r q : CommandRow} (h : r.pattern &&& q.mask ≠ q.pattern &&& r.mask) (c : Word) :
    ¬(r.selects c = true ∧ q.selects c = true) := by
  simp only [CommandRow.selects, beq_iff_eq]
  rintro ⟨hr, hq⟩
  refine h ?_
  rw [← hr, ← hq, BitVec.and_assoc, BitVec.and_assoc, BitVec.and_comm r.mask]

/-- Settles O3: any two patterns differ under both masks. -/
theorem opcodeRowsDisjoint : Obligations.OpcodeRowsDisjoint := by
  have hdiffer : commandRows.Pairwise fun r q => r.pattern &&& q.mask ≠ q.pattern &&& r.mask := by decide
  exact hdiffer.imp not_selects_both

/-- A word decodes by any row that selects it, since no other row does (R71). -/
theorem decodeCommand_of_selects {r : CommandRow} {c : Word} (hr : r ∈ commandRows) (hsel : r.selects c = true) :
    decodeCommand c = .ok (r.build c) := by
  obtain ⟨before, after, hsplit⟩ := List.append_of_mem hr
  have hdisjoint : commandRows.Pairwise _ := opcodeRowsDisjoint
  rw [hsplit, List.pairwise_append] at hdisjoint
  obtain ⟨-, -, hbefore⟩ := hdisjoint
  have hfind : commandRows.find? (·.selects c) = some r :=
    List.find?_eq_some_iff_append.mpr ⟨hsel, before, after, hsplit, fun q hq => by
      simpa [hsel] using hbefore q hq r List.mem_cons_self c⟩
  rw [decodeCommand, hfind]

/-! ## A row and its command's word -/

/-- The fields of a command's word (R70, R71). -/
theorem fieldsOf_commandWord_zz8 (a : Byte) : fieldsOf (commandWord (.zz8 a)) = cmdFields 3 0 a 0 := fieldsOf_wordOf _

theorem fieldsOf_commandWord_dz8 (a b : Byte) : fieldsOf (commandWord (.dz8 a b)) = cmdFields 4 0 a b := fieldsOf_wordOf _

/-- Each command has a row that selects its word and builds it from that word (R71). -/
theorem exists_row_of_command {i : Instr} (hi : isCommand i = true) :
    ∃ r ∈ commandRows, r.selects (commandWord i) = true ∧ r.build (commandWord i) = i := by
  cases i with
  | nop => exact ⟨commandRows[0], List.getElem_mem _, by decide, rfl⟩
  | clr => exact ⟨commandRows[1], List.getElem_mem _, by decide, rfl⟩
  | seed => exact ⟨commandRows[2], List.getElem_mem _, by decide, rfl⟩
  | zz8 a =>
    have ha : operandA (commandWord (.zz8 a)) = a := congrArg CmdFields.a (fieldsOf_commandWord_zz8 a)
    exact ⟨commandRows[3], List.getElem_mem _, beq_iff_eq.mpr (Laws.TableRow.zz8 a), congrArg Instr.zz8 ha⟩
  | dz8 a b =>
    have ha : operandA (commandWord (.dz8 a b)) = a := congrArg CmdFields.a (fieldsOf_commandWord_dz8 a b)
    have hb : operandB (commandWord (.dz8 a b)) = b := congrArg CmdFields.b (fieldsOf_commandWord_dz8 a b)
    exact ⟨commandRows[4], List.getElem_mem _, beq_iff_eq.mpr (Laws.TableRow.dz8 a b), congrArg₂ Instr.dz8 ha hb⟩
  | pack1 => exact ⟨commandRows[5], List.getElem_mem _, by decide, rfl⟩
  | pack2 => exact ⟨commandRows[6], List.getElem_mem _, by decide, rfl⟩
  | pack4 => exact ⟨commandRows[7], List.getElem_mem _, by decide, rfl⟩
  | pack8 => exact ⟨commandRows[8], List.getElem_mem _, by decide, rfl⟩
  | encg => exact ⟨commandRows[9], List.getElem_mem _, by decide, rfl⟩
  | encb => exact ⟨commandRows[10], List.getElem_mem _, by decide, rfl⟩
  | width1 | width2 | width4 | width8 | formatV1 => cases hi

/-- A command's word decodes to it. -/
theorem decodeCommand_commandWord {i : Instr} (hi : isCommand i = true) : decodeCommand (commandWord i) = .ok i := by
  obtain ⟨r, hr, hsel, hbuild⟩ := exists_row_of_command hi
  rw [decodeCommand_of_selects hr hsel, hbuild]

/-- A table word of 32 bits is a command word (log 14). -/
theorem decodeTableWord_32 (c : Word) : decodeTableWord 32 c.toNat = (decodeCommand c).toOption := by
  rw [decodeTableWord, if_pos (by decide), BitVec.ofNat_toNat, BitVec.setWidth_eq]

/-- Settles O1: the commands by their rows, the five wire rows by their one byte. -/
theorem decodeOfEncodeIsInstruction : Obligations.DecodeOfEncodeIsInstruction := by
  intro i
  cases hi : isCommand i with
  | true => rw [encode, hi, if_pos rfl, decodeTableWord_32, decodeCommand_commandWord hi, Except.toOption]
  | false =>
    cases i with
    | nop | clr | seed | zz8 | dz8 | pack1 | pack2 | pack4 | pack8 | encg | encb => cases hi
    | width1 | width2 | width4 | width8 | formatV1 => decide

/-! ## A word that decodes is a command's word -/

/-- A word is an `and` with a mask field by field (R70). -/
theorem fieldsOf_and (c m : Word) : fieldsOf (c &&& m) =
    { op := (fieldsOf c).op &&& (fieldsOf m).op, w := (fieldsOf c).w &&& (fieldsOf m).w
      zero6 := (fieldsOf c).zero6 &&& (fieldsOf m).zero6, a := (fieldsOf c).a &&& (fieldsOf m).a
      b := (fieldsOf c).b &&& (fieldsOf m).b, zero24 := (fieldsOf c).zero24 &&& (fieldsOf m).zero24 } := by
  simp only [fieldsOf, operandA, operandB, BitVec.extractLsb'_and]

/-- A word in the row of ZZ8 is the word of ZZ8 with its operand (R71). -/
theorem commandWord_zz8_of_masked {c : Word} (h : c &&& 0xFFFF00FF = 0x00000003) :
    commandWord (.zz8 (operandA c)) = c := by
  have hmask : fieldsOf 0xFFFF00FF = ⟨.allOnes 4, .allOnes 2, .allOnes 2, 0, .allOnes 8, .allOnes 8⟩ := by decide
  have hfields : fieldsOf (c &&& 0xFFFF00FF) = cmdFields 3 0 0 0 := by rw [h]; decide
  simp only [fieldsOf_and, hmask, cmdFields, CmdFields.mk.injEq, BitVec.and_allOnes] at hfields
  obtain ⟨hop, hw, hzero6, -, hb, hzero24⟩ := hfields
  have hc : fieldsOf c = cmdFields 3 0 (operandA c) 0 :=
    (CmdFields.mk.injEq ..).mpr ⟨hop, hw, hzero6, rfl, hb, hzero24⟩
  rw [commandWord, ← hc, wordOf_fieldsOf]

/-- A word in the row of DZ8 is the word of DZ8 with its operands (R71). -/
theorem commandWord_dz8_of_masked {c : Word} (h : c &&& 0xFF0000FF = 0x00000004) :
    commandWord (.dz8 (operandA c) (operandB c)) = c := by
  have hmask : fieldsOf 0xFF0000FF = ⟨.allOnes 4, .allOnes 2, .allOnes 2, 0, 0, .allOnes 8⟩ := by decide
  have hfields : fieldsOf (c &&& 0xFF0000FF) = cmdFields 4 0 0 0 := by rw [h]; decide
  simp only [fieldsOf_and, hmask, cmdFields, CmdFields.mk.injEq, BitVec.and_allOnes] at hfields
  obtain ⟨hop, hw, hzero6, -, -, hzero24⟩ := hfields
  have hc : fieldsOf c = cmdFields 4 0 (operandA c) (operandB c) :=
    (CmdFields.mk.injEq ..).mpr ⟨hop, hw, hzero6, rfl, rfl, hzero24⟩
  rw [commandWord, ← hc, wordOf_fieldsOf]

/-- A row of the opcode map selects only the word of the command it builds (R71). -/
theorem commandWord_of_selects {r : CommandRow} {c : Word} (hr : r ∈ commandRows) (hsel : r.selects c = true) :
    commandWord (r.build c) = c := by
  rw [CommandRow.selects, beq_iff_eq] at hsel
  simp only [commandRows, List.mem_cons, List.not_mem_nil, or_false] at hr
  rcases hr with rfl | rfl | rfl | rfl | rfl | rfl | rfl | rfl | rfl | rfl | rfl
  case inr.inr.inr.inl => exact commandWord_zz8_of_masked hsel
  case inr.inr.inr.inr.inl => exact commandWord_dz8_of_masked hsel
  all_goals
    obtain rfl := BitVec.and_allOnes.symm.trans hsel
    decide

/-- A word that decodes is the word of its command (R71). -/
theorem commandWord_of_decodeCommand {c : Word} {i : Instr} (h : decodeCommand c = .ok i) : commandWord i = c := by
  obtain ⟨r, hr, hsel, rfl⟩ := decodeCommand_ok h
  exact commandWord_of_selects hr hsel

/-- Settles O2: the row that decodes a word selects no word but its command's. -/
theorem encodeOfDecodedWordIsWord : Obligations.EncodeOfDecodedWordIsWord := fun _ _ h =>
  ⟨isCommand_of_decodeCommand h, commandWord_of_decodeCommand h⟩

/-! ## The illegal words -/

/-- A command's word is legal (R70, R73). -/
theorem wf_fieldsOf_commandWord {i : Instr} (hi : isCommand i = true) : (fieldsOf (commandWord i)).wf := by
  cases i with
  | zz8 a => simp [CmdFields.wf, fieldsOf_commandWord_zz8, cmdFields]
  | dz8 a b => simp [CmdFields.wf, fieldsOf_commandWord_dz8, cmdFields]
  | nop | clr | seed | pack1 | pack2 | pack4 | pack8 | encg | encb => decide
  | width1 | width2 | width4 | width8 | formatV1 => cases hi

/-- Legal fields are the fields of a command (R70, R71). -/
theorem exists_command_of_wf {f : CmdFields} (h : f.wf) : ∃ i, isCommand i = true ∧ commandWord i = wordOf f := by
  obtain ⟨op, w, zero6, a, b, zero24⟩ := f
  obtain ⟨hop, rfl, rfl, hw, ha, hb⟩ := h
  simp only at hop hw ha hb
  have hops : ∀ op : BitVec 4, op.toNat ≤ 7 →
      op = 3 ∨ op = 4 ∨ op = 5 ∨ op = 0 ∨ op = 1 ∨ op = 2 ∨ op = 6 ∨ op = 7 := by decide
  have hwidths : ∀ w : BitVec 2, w = 0 ∨ w = 1 ∨ w = 2 ∨ w = 3 := by decide
  rcases hops op hop with rfl | rfl | rfl | hrest
  · obtain rfl := hw.resolve_right (by decide)
    obtain rfl := hb.resolve_right (by decide)
    exact ⟨.zz8 a, rfl, rfl⟩
  · obtain rfl := hw.resolve_right (by decide)
    exact ⟨.dz8 a b, rfl, rfl⟩
  · obtain rfl := ha.resolve_right (by decide)
    obtain rfl := hb.resolve_right (by decide)
    rcases hwidths w with rfl | rfl | rfl | rfl
    exacts [⟨.pack1, rfl, rfl⟩, ⟨.pack2, rfl, rfl⟩, ⟨.pack4, rfl, rfl⟩, ⟨.pack8, rfl, rfl⟩]
  · rcases hrest with rfl | rfl | rfl | rfl | rfl
    all_goals
      obtain rfl := hw.resolve_right (by decide)
      obtain rfl := ha.resolve_right (by decide)
      obtain rfl := hb.resolve_right (by decide)
    exacts [⟨.nop, rfl, rfl⟩, ⟨.clr, rfl, rfl⟩, ⟨.seed, rfl, rfl⟩, ⟨.encg, rfl, rfl⟩, ⟨.encb, rfl, rfl⟩]

/-- A word decodes to a command exactly if it is legal (R71, R73). -/
theorem exists_decodeCommand_ok_iff (c : Word) : (∃ i, decodeCommand c = .ok i) ↔ (fieldsOf c).wf := by
  constructor
  · rintro ⟨i, h⟩
    rw [← commandWord_of_decodeCommand h]
    exact wf_fieldsOf_commandWord (isCommand_of_decodeCommand h)
  · intro h
    obtain ⟨i, hi, hword⟩ := exists_command_of_wf h
    rw [wordOf_fieldsOf] at hword
    exact ⟨i, hword ▸ decodeCommand_commandWord hi⟩

theorem exists_decodeCommand_error_iff (c : Word) : (∃ e, decodeCommand c = .error e) ↔ ¬(fieldsOf c).wf := by
  rw [← exists_decodeCommand_ok_iff]
  cases decodeCommand c <;> simp

theorem writeCommand_of_illegal {c : Word} {e : Reject} (h : decodeCommand c = .error e) (s : State) :
    writeCommand c s = illegalCommand c s := by simp [writeCommand, h]

/-- Settles O4: the legal words are those of the commands, and the rule of any other word raises `Err(OPCODE)`. -/
theorem illegalWordsRaiseOpcode : Obligations.IllegalWordsRaiseOpcode := by
  refine ⟨exists_decodeCommand_error_iff, fun s c e hs h => ?_⟩
  have hacc := ignoresCommand_of_ready hs c
  obtain ⟨-, hidle, -, -⟩ := hs
  have hrun : illegalCommand c s = .next ((s.accept c).raiseErr .opcode).complete := command_of_accepted hacc rfl
  rw [writeCommand_of_illegal h, hrun, State.complete, ← hidle]
  rfl

/-- Settles O5: each legal word is the word of its command. -/
theorem specWordsDecode : Obligations.SpecWordsDecode :=
  ⟨decodeCommand_commandWord (i := .nop) rfl, decodeCommand_commandWord (i := .clr) rfl,
    decodeCommand_commandWord (i := .seed) rfl, decodeCommand_commandWord (i := .zz8 0xFD) rfl,
    decodeCommand_commandWord (i := .dz8 0xFF 0x02) rfl, decodeCommand_commandWord (i := .pack4) rfl,
    decodeCommand_commandWord (i := .encg) rfl, decodeCommand_commandWord (i := .encb) rfl, rfl, rfl, rfl,
    by decide, by decide⟩

end Sys2Proof.Machine

/-! Lemmas and obligations: the fields in the fixed bytes of a payload, the length of a payload told by its fields, and the
round trip of a group through its payload (R83 to R85, R125, R130). -/

namespace Sys2Proof.Machine

/-! ## The fields of a fixed byte -/

/-- The number whose `m` digits in base `B` are `f 0 .. f (m-1)`, the first the most significant (R83). -/
def packDigits (B : Nat) (f : Nat → Nat) : Nat → Nat
  | 0 => 0
  | m + 1 => packDigits B f m * B + f m

theorem packDigits_lt {B : Nat} {f : Nat → Nat} (hf : ∀ t, f t < B) : ∀ m, packDigits B f m < B ^ m
  | 0 => Nat.one_pos
  | m + 1 => by
    have hm := packDigits_lt hf m
    have hdigit := hf m
    calc packDigits B f m * B + f m < (packDigits B f m + 1) * B := by rw [Nat.succ_mul]; omega
      _ ≤ B ^ m * B := Nat.mul_le_mul_right B hm
      _ = B ^ (m + 1) := (Nat.pow_succ ..).symm

/-- Digit `t` stands above the `m - 1 - t` digits after it. -/
theorem packDigits_digit {B : Nat} {f : Nat → Nat} (hf : ∀ t, f t < B) :
    ∀ {m t : Nat}, t < m → packDigits B f m / B ^ (m - 1 - t) % B = f t
  | m + 1, t, ht => by
    have hB : 0 < B := Nat.zero_lt_of_lt (hf 0)
    rcases Nat.lt_succ_iff_lt_or_eq.mp ht with hlt | rfl
    · have hexp : m + 1 - 1 - t = (m - 1 - t) + 1 := by omega
      have hquot : (packDigits B f m * B + f m) / B = packDigits B f m := by
        rw [Nat.mul_comm, Nat.mul_add_div hB, Nat.div_eq_of_lt (hf m), Nat.add_zero]
      rw [hexp, Nat.pow_succ', ← Nat.div_div_eq_div_mul, packDigits, hquot]
      exact packDigits_digit hf hlt
    · rw [Nat.add_sub_cancel, Nat.sub_self, Nat.pow_zero, Nat.div_one, packDigits, Nat.mul_add_mod_self_right,
        Nat.mod_eq_of_lt (hf t)]

/-- A field holds the smaller of the value and the sentinel (R125). -/
theorem clampField_toNat (b : Width) (v : Byte) : (clampField b v).toNat = min v.toNat (sentinel b) := by
  have hsentinel : sentinel b < 256 := by cases b <;> decide
  simp only [clampField, isEscaped, decide_eq_true_eq]
  split
  · rw [BitVec.toNat_ofNat, Nat.mod_eq_of_lt hsentinel]
    omega
  · omega

/-- A sentinel is the largest field (R80). -/
theorem sentinel_lt (b : Width) : sentinel b < 2 ^ widthBits b := Nat.sub_one_lt (Nat.two_pow_pos _).ne'

/-- A shift by the width and the next field: one more digit, while the byte has room for it. -/
theorem toNat_shiftLeft_or {byte field : Byte} {k : Nat} (hroom : byte.toNat * 2 ^ k < 256) (hfield : field.toNat < 2 ^ k) :
    (byte <<< k ||| field).toNat = byte.toNat * 2 ^ k + field.toNat := by
  have hshift : (byte <<< k).toNat = byte.toNat <<< k := by
    rw [BitVec.toNat_shiftLeft, Nat.shiftLeft_eq, Nat.mod_eq_of_lt hroom]
  rw [BitVec.toNat_or, hshift, ← Nat.shiftLeft_add_eq_or_of_lt hfield, Nat.shiftLeft_eq]

/-- Fields of width `b` taken one after another are the digits of a number, as far as a byte has room (R83). -/
theorem toNat_foldl_fields (b : Width) (v : Nat → Byte) : ∀ m, m ≤ byteSize b →
    ((List.range m).foldl (fun (byte : Byte) t => byte <<< widthBits b ||| clampField b (v t)) 0).toNat =
      packDigits (2 ^ widthBits b) (fun t => min (v t).toNat (sentinel b)) m
  | 0, _ => rfl
  | m + 1, hm => by
    have ih := toNat_foldl_fields b v m (Nat.le_of_succ_le hm)
    have hfield : ∀ t, min (v t).toNat (sentinel b) < 2 ^ widthBits b := fun t =>
      (Nat.min_le_right _ _).trans_lt (sentinel_lt b)
    have hbits : (2 ^ widthBits b) ^ byteSize b = 256 := by cases b <;> decide
    have hroom : packDigits (2 ^ widthBits b) (fun t => min (v t).toNat (sentinel b)) m * 2 ^ widthBits b < 256 := by
      calc _ < (2 ^ widthBits b) ^ m * 2 ^ widthBits b :=
            Nat.mul_lt_mul_of_pos_right (packDigits_lt hfield m) (Nat.two_pow_pos _)
        _ = (2 ^ widthBits b) ^ (m + 1) := (Nat.pow_succ ..).symm
        _ ≤ (2 ^ widthBits b) ^ byteSize b := Nat.pow_le_pow_right (Nat.two_pow_pos _) hm
        _ = 256 := hbits
    have hclamp : (clampField b (v m)).toNat < 2 ^ widthBits b := clampField_toNat b (v m) ▸ hfield m
    rw [List.range_succ, List.foldl_append, List.foldl_cons, List.foldl_nil, toNat_shiftLeft_or (ih ▸ hroom) hclamp, ih,
      clampField_toNat]
    rfl

/-- The field of lane `i` of a group: its value, or the sentinel (R125). -/
def groupField (g : List Byte) (b : Width) (i : Nat) : Nat := min (g.getD i 0).toNat (sentinel b)

theorem groupField_lt (g : List Byte) (b : Width) (i : Nat) : groupField g b i < 2 ^ widthBits b :=
  (Nat.min_le_right _ _).trans_lt (sentinel_lt b)

/-- A fixed byte holds the fields of its lanes, the lowest index in the most significant bits (R83). -/
theorem fixedByte_toNat (g : List Byte) (b : Width) (j : Nat) :
    (fixedByte g b j).toNat =
      packDigits (2 ^ widthBits b) (fun t => groupField g b (j * byteSize b + t)) (byteSize b) :=
  toNat_foldl_fields b (fun t => g.getD (j * byteSize b + t) 0) _ le_rfl

/-- Settles O40: the digits of a fixed byte at their weights. -/
theorem fixedBytesHoldFields : Obligations.FixedBytesHoldFields := by
  intro g _ f2 f4
  refine ⟨fun j _ => ?_, fun j _ => ?_⟩
  · have hbyte : (fixedByte g .w2 j).toNat =
        (((0 * 4 + f2 (j * 4)) * 4 + f2 (j * 4 + 1)) * 4 + f2 (j * 4 + 2)) * 4 + f2 (j * 4 + 3) := fixedByte_toNat g .w2 j
    rw [hbyte, Nat.mul_comm j]
    omega
  · have hbyte : (fixedByte g .w4 j).toNat = (0 * 16 + f4 (j * 2)) * 16 + f4 (j * 2 + 1) := fixedByte_toNat g .w4 j
    rw [hbyte, Nat.mul_comm j]
    omega

/-! ## The length of a payload -/

/-- Each lane whose field is the sentinel takes one escape byte (R130). -/
theorem unpackLanes_snd (p : List Byte) (b : Width) (lanes : List Nat) (e : Nat) :
    (unpackLanes p b lanes e).2 = e + lanes.countP fun i => laneField p b i == sentinel b := by
  induction lanes generalizing e with
  | nil => rfl
  | cons i lanes ih =>
    rw [unpackLanes]
    split
    · rename_i hi
      rw [List.countP_cons_of_pos (by simpa using hi)]
      exact (ih (e + 1)).trans (by omega)
    · rename_i hi
      rw [List.countP_cons_of_neg (by simpa using hi)]
      exact ih e

/-- Settles O43: at widths 2 and 4 both count the sentinels, at widths 1 and 8 both are fixed. -/
theorem payloadLengthIsBytesConsumed : Obligations.PayloadLengthIsBytesConsumed := by
  intro p b
  cases b with
  | w1 | w8 => rfl
  | w2 | w4 => exact (unpackLanes_snd p _ _ _).symm

theorem unpackLanes_fst_length (p : List Byte) (b : Width) (lanes : List Nat) (e : Nat) :
    (unpackLanes p b lanes e).1.length = lanes.length := by
  induction lanes generalizing e with
  | nil => rfl
  | cons i lanes ih =>
    rw [unpackLanes]
    split
    · exact congrArg (· + 1) (ih (e + 1))
    · exact congrArg (· + 1) (ih e)

/-- A group has 16 values whatever its bytes (R130). -/
theorem unpackGroup_fst_length {p : List Byte} (b : Width) (hp : groupSize ≤ p.length) :
    (unpackGroup p b).1.length = groupSize := by
  cases b with
  | w1 => rfl
  | w2 | w4 => exact unpackLanes_fst_length p _ _ _
  | w8 => exact List.length_take_of_le hp

/-! ## The round trip of a group -/

theorem getD_of_prefix {l p : List Byte} (h : l <+: p) {i : Nat} (hi : i < l.length) : p.getD i 0 = l.getD i 0 := by
  rw [List.getD, List.getD, List.prefix_iff_getElem?.mp h i hi, List.getElem?_eq_getElem hi]

/-- The field of a lane in a payload is that of the group (R83, R130). -/
theorem laneField_of_fixedBytes {g p : List Byte} {b : Width} (h : fixedBytes g b <+: p) {i : Nat} (hi : i < groupSize) :
    laneField p b i = groupField g b i := by
  have hbyte : 0 < byteSize b := by cases b <;> decide
  have hsplit : groupSize = groupSize / byteSize b * byteSize b := by cases b <;> decide
  have hj : i / byteSize b < groupSize / byteSize b := Nat.div_lt_of_lt_mul (by rwa [Nat.mul_comm, ← hsplit])
  have hfixed : p.getD (i / byteSize b) 0 = fixedByte g b (i / byteSize b) := by
    rw [getD_of_prefix h (by rwa [fixedBytes_length])]
    simp [fixedBytes, List.getD, hj]
  rw [laneField, hfixed, fixedByte_toNat, Nat.pow_mul,
    packDigits_digit (fun t => groupField_lt g b (i / byteSize b * byteSize b + t)) (Nat.mod_lt i hbyte),
    Nat.div_add_mod']

/-- A value is escaped exactly if its field is the sentinel (R125, R126). -/
theorem min_sentinel_eq_iff (b : Width) (v : Byte) : min v.toNat (sentinel b) = sentinel b ↔ isEscaped b v = true := by
  rw [isEscaped, decide_eq_true_eq, min_eq_right_iff]

/-- Lanes whose fields are those of the values `vs`, with the escape bytes of `vs` from index `e` up, give `vs` back
(R128, R130). -/
theorem unpackLanes_of_fields (p : List Byte) (b : Width) : ∀ (vs : List Byte) (i e : Nat),
    (∀ t, t < vs.length → laneField p b (i + t) = groupField vs b t) → escapes b vs <+: p.drop e →
      unpackLanes p b (List.range' i vs.length) e = (vs, e + (escapes b vs).length)
  | [], _, _, _, _ => rfl
  | v :: vs, i, e, hfield, hesc => by
    have hhead : laneField p b i = min v.toNat (sentinel b) := hfield 0 (Nat.succ_pos _)
    have htail : ∀ t, t < vs.length → laneField p b (i + 1 + t) = groupField vs b t := fun t ht => by
      rw [Nat.add_right_comm]
      exact hfield (t + 1) (Nat.succ_lt_succ ht)
    rw [List.length_cons, List.range'_succ, unpackLanes]
    by_cases hv : isEscaped b v = true
    · have hcons : escapes b (v :: vs) = v :: escapes b vs := List.filter_cons_of_pos hv
      rw [hcons] at hesc ⊢
      have hbyte : p.getD e 0 = v := by
        simpa using getD_of_prefix hesc (i := 0) (Nat.succ_pos _)
      have hrest : escapes b vs <+: p.drop (e + 1) := by
        simpa using hesc.drop 1
      rw [if_pos (hhead.trans ((min_sentinel_eq_iff b v).mpr hv)), unpackLanes_of_fields p b vs (i + 1) (e + 1) htail hrest,
        hbyte, List.length_cons, Nat.add_right_comm, Nat.add_assoc]
    · have hcons : escapes b (v :: vs) = escapes b vs := List.filter_cons_of_neg hv
      rw [hcons] at hesc ⊢
      have hne : min v.toNat (sentinel b) ≠ sentinel b := mt (min_sentinel_eq_iff b v).mp hv
      have hvalue : laneField p b i = v.toNat := by omega
      rw [if_neg (hhead ▸ hne), unpackLanes_of_fields p b vs (i + 1) e htail hesc, hvalue, BitVec.ofNat_toNat,
        BitVec.setWidth_eq]

/-- The lanes of a payload of width 2 or 4 are the group (R128, R130). -/
theorem unpackLanes_of_payload {g p : List Byte} {b : Width} (hg : g.length = groupSize)
    (hp : fixedBytes g b ++ escapes b g <+: p) :
    unpackLanes p b (List.range groupSize) (groupSize / byteSize b) =
      (g, groupSize / byteSize b + (escapes b g).length) := by
  have hfixed : fixedBytes g b <+: p := (List.prefix_append _ _).trans hp
  have hesc : escapes b g <+: p.drop (groupSize / byteSize b) := by
    simpa using hp.drop (fixedBytes g b).length
  have hfield : ∀ t, t < g.length → laneField p b (0 + t) = groupField g b t := fun t ht => by
    rw [Nat.zero_add]
    exact laneField_of_fixedBytes hfixed (hg ▸ ht)
  have hlanes := unpackLanes_of_fields p b g 0 _ hfield hesc
  rwa [hg, ← List.range_eq_range'] at hlanes

/-- The reader gets a group back from any bytes that begin with its payload (R130, R131). -/
theorem unpackGroup_of_payload {g p : List Byte} {b : Width} {n : Nat} (hg : g.length = groupSize)
    (hn : packedSize g b = some n) (hp : payload g b <+: p) : unpackGroup p b = (g, n) := by
  cases b with
  | w1 =>
    simp only [packedSize] at hn
    split at hn <;> cases hn
    rename_i hzero
    have hg0 : g = List.replicate groupSize 0 := List.eq_replicate_iff.mpr ⟨hg, by simpa using hzero⟩
    rw [hg0]
    rfl
  | w2 | w4 =>
    cases hn
    rw [unpackGroup, unpackLanes_of_payload hg hp, escapes_length]
    rfl
  | w8 =>
    cases hn
    have htake : p.take groupSize = g := by rw [← hg, ← List.prefix_iff_eq_take.mp (show g <+: p from hp)]
    rw [unpackGroup, htake]
    rfl

/-! ## The width codes -/

/-- The instruction of a width code and the width it stands for (R80). -/
theorem exec_widthCode {p : Instr × Width}
    (hp : p ∈ [(Instr.width1, Width.w1), (Instr.width2, Width.w2), (Instr.width4, Width.w4), (Instr.width8, Width.w8)])
    (s : State) : exec p.1 s = takeGroup p.2 s := by
  simp only [List.mem_cons, List.not_mem_nil, or_false] at hp
  rcases hp with rfl | rfl | rfl | rfl <;> rfl

/-- With no command in flight the reader takes what its bytes give from populated memory (R130, R144). -/
theorem takeGroup_of_unpackGroup {b : Width} {s : State} {v : List Byte} {n : Nat} (hidle : s.inFlight = none)
    (hgroup : unpackGroup (s.mem.readBytes s.reader.pos decodeLimit) b = (v, n))
    (hspace : s.reader.pos + n ≤ 2 ^ s.cfg.aw) (hpop : covers s.cfg s.reader.pos (s.reader.pos + n) = true) :
    takeGroup b s = .next { s with reader := { pos := s.reader.pos + n, values := s.reader.values ++ v } } := by
  rw [takeGroup, hgroup]
  exact hostAccess_of_ok (.inr hspace) hpop (handOffKept_of_idle hidle _ _ _)

/-- Settles O56: the bytes give 16 values and their length, whatever they are. -/
theorem widthCodesComplete : Obligations.WidthCodesComplete := by
  intro s p hp hidle n hspace hpop
  have hlength : n = (unpackGroup (s.mem.readBytes s.reader.pos decodeLimit) p.2).2 := payloadLengthIsBytesConsumed _ _
  refine ⟨(unpackGroup (s.mem.readBytes s.reader.pos decodeLimit) p.2).1, unpackGroup_fst_length _ ?_, ?_⟩
  · rw [Memory.readBytes_length]
    decide
  · rw [exec_widthCode hp]
    exact takeGroup_of_unpackGroup hidle (by rw [hlength]) hspace hpop

theorem Memory.readBytes_prefix (m : Memory) (a : Nat) {n k : Nat} (h : n ≤ k) : m.readBytes a n <+: m.readBytes a k := by
  obtain ⟨d, rfl⟩ := Nat.exists_eq_add_of_le h
  rw [Memory.readBytes, Memory.readBytes, List.range_add, List.map_append]
  exact List.prefix_append _ _

/-- A payload has at most `DECODE_LIMIT` bytes (R119). -/
theorem packedSize_le {g : List Byte} {b : Width} {n : Nat} (hg : g.length = groupSize) (h : packedSize g b = some n) :
    n ≤ decodeLimit := by
  have hcount : ∀ q : Byte → Bool, g.countP q ≤ 16 := fun q => List.countP_le_length.trans_eq hg
  cases b with
  | w1 =>
    simp only [packedSize] at h
    split at h <;> cases h
    decide
  | w2 =>
    cases h
    exact (Nat.add_le_add_left (hcount _) 4).trans (by decide)
  | w4 =>
    cases h
    exact Nat.add_le_add_left (hcount _) 8
  | w8 =>
    cases h
    decide

/-- Settles O55: the bytes the reader looks at begin with the payload. -/
theorem widthCodesTakeGroups : Obligations.WidthCodesTakeGroups := by
  intro s p g n hp hg hn hpayload hspace hpop hidle
  have hprefix : payload g p.2 <+: s.mem.readBytes s.reader.pos decodeLimit :=
    hpayload ▸ s.mem.readBytes_prefix s.reader.pos (packedSize_le hg hn)
  rw [exec_widthCode hp]
  exact takeGroup_of_unpackGroup hidle (unpackGroup_of_payload hg hn hprefix) hspace hpop

end Sys2Proof.Machine

/-! Lemmas and obligations: the zigzag transform of a byte, its inverse, and the commands that write it (R100 to R105). -/

namespace Sys2Proof.Machine

/-! ## The transform and its inverse as numbers -/

theorem ushiftRight_seven_of_lt {d : Byte} (h : d.toNat < 128) : d >>> 7 = 0#8 := by
  apply BitVec.eq_of_toNat_eq
  rw [BitVec.toNat_ushiftRight, Nat.shiftRight_eq_div_pow]
  exact Nat.div_eq_of_lt h

/-- The arithmetic shift by 7 spreads the sign over the byte (R100). -/
theorem sshiftRight_seven (d : Byte) : d.sshiftRight 7 = if d.toNat < 128 then 0#8 else BitVec.allOnes 8 := by
  have hmsb : d.msb = decide (128 ≤ d.toNat) := BitVec.msb_eq_decide d
  split
  · rename_i hpos
    rw [BitVec.sshiftRight_eq_of_msb_false (by simpa [hmsb] using hpos), ushiftRight_seven_of_lt hpos]
  · rename_i hneg
    have hcompl : (~~~d).toNat < 128 := by rw [BitVec.toNat_not]; omega
    rw [BitVec.sshiftRight_eq_of_msb_true (by simpa [hmsb] using hneg), ushiftRight_seven_of_lt hcompl, BitVec.not_zero]

/-- The closed form of the transform (R105). -/
theorem zigzag8_toNat (d : Byte) : (zigzag8 d).toNat = zigzagClosedForm d.toNat := by
  have hdouble : (d <<< 1).toNat = d.toNat * 2 % 256 := by rw [BitVec.toNat_shiftLeft, Nat.shiftLeft_eq]
  have hd := d.isLt
  rw [zigzag8, sshiftRight_seven, zigzagClosedForm]
  split
  · rw [BitVec.zero_xor, hdouble]
    omega
  · rw [BitVec.allOnes_xor, BitVec.toNat_not, hdouble]
    omega

/-- Minus the lowest bit: a byte of zeros or of ones (R104). -/
theorem zero_sub_and_one (v : Byte) : 0 - (v &&& 1) = if v.toNat % 2 = 0 then 0#8 else BitVec.allOnes 8 := by
  have hbit : (v &&& 1).toNat = v.toNat % 2 := by rw [BitVec.toNat_and]; exact Nat.and_one_is_mod _
  rcases Nat.mod_two_eq_zero_or_one v.toNat with h | h
  · have hzero : v &&& 1 = 0 := BitVec.eq_of_toNat_eq (hbit.trans h)
    rw [hzero, if_pos h]
    rfl
  · have hone : v &&& 1 = 1 := BitVec.eq_of_toNat_eq (hbit.trans h)
    rw [hone, if_neg (by omega)]
    rfl

/-- The inverse as it is written in R104. -/
theorem unzigzag8_toNat_eq_xor (v : Byte) :
    (unzigzag8 v).toNat = Nat.xor (v.toNat / 2) (if v.toNat % 2 = 0 then 0 else 255) := by
  rw [unzigzag8, zero_sub_and_one, BitVec.toNat_xor, BitVec.toNat_ushiftRight, Nat.shiftRight_one]
  split <;> rfl

/-- The closed form of the inverse: even bytes come from the deltas from 0 up, odd ones from -1 down (R105). -/
theorem unzigzag8_toNat (v : Byte) :
    (unzigzag8 v).toNat = if v.toNat % 2 = 0 then v.toNat / 2 else 255 - v.toNat / 2 := by
  have hhalf : (v >>> 1).toNat = v.toNat / 2 := by rw [BitVec.toNat_ushiftRight, Nat.shiftRight_one]
  rw [unzigzag8, zero_sub_and_one]
  split
  · rw [BitVec.xor_zero, hhalf]
  · rw [BitVec.xor_allOnes, BitVec.toNat_not, hhalf]

theorem unzigzag8_zigzag8 (d : Byte) : unzigzag8 (zigzag8 d) = d := by
  have hd := d.isLt
  apply BitVec.eq_of_toNat_eq
  rw [unzigzag8_toNat, zigzag8_toNat, zigzagClosedForm]
  by_cases hpos : d.toNat < 128
  · rw [if_pos hpos, if_pos (by omega)]
    omega
  · rw [if_neg hpos, if_neg (by omega)]
    omega

theorem zigzag8_unzigzag8 (v : Byte) : zigzag8 (unzigzag8 v) = v := by
  have hv := v.isLt
  apply BitVec.eq_of_toNat_eq
  rw [zigzag8_toNat, unzigzag8_toNat, zigzagClosedForm]
  by_cases heven : v.toNat % 2 = 0
  · rw [if_pos heven, if_pos (by omega)]
    omega
  · rw [if_neg heven, if_neg (by omega)]
    omega

/-- Settles O13: the closed forms are inverse, and the decoded delta is the wrapping difference. -/
theorem zigzagIsBijection : Obligations.ZigzagIsBijection := by
  refine ⟨unzigzag8_toNat_eq_xor, unzigzag8_zigzag8, zigzag8_unzigzag8, fun cur pred => ?_⟩
  rw [delta8, unzigzag8_zigzag8, BitVec.add_comm, BitVec.sub_add_cancel]

/-! ## The commands -/

/-- A command whose rule writes `RESULT` alone, on a block that accepts it, sets `RESULT` and `DONE` (R32, R165). -/
theorem resultCommand_of_ready {s : State} (hs : s.ready) (c v : Word) :
    command c (fun t => .next (t.setResult v)) s = .next { s with result := v, done := true } := by
  have hacc := ignoresCommand_of_ready hs c
  obtain ⟨-, hidle, -, -⟩ := hs
  rw [command_of_accepted (u := (s.accept c).setResult v) hacc rfl, State.complete, ← hidle]
  rfl

/-- The zigzag of a byte as a word is its closed form (R102, R105). -/
theorem zigzag8_setWidth (d : Byte) : (zigzag8 d).setWidth 32 = BitVec.ofNat 32 (zigzagClosedForm d.toNat) := by
  rw [← zigzag8_toNat, BitVec.ofNat_toNat]

/-- Settles O11: the rule writes `RESULT` alone, and the transform has the closed form. -/
theorem zz8WritesZigzag : Obligations.Zz8WritesZigzag := by
  intro s a hs
  rw [← zigzag8_setWidth]
  exact resultCommand_of_ready hs _ _

/-- Settles O12: as ZZ8, for the wrapping difference. -/
theorem dz8WritesZigzagOfDifference : Obligations.Dz8WritesZigzagOfDifference := by
  intro s a b hs
  have hdiff : (a - b).toNat = (a.toNat + 256 - b.toNat) % 256 := by bv_omega
  rw [← hdiff, ← zigzag8_setWidth]
  exact resultCommand_of_ready hs _ _

end Sys2Proof.Machine

/-! Lemmas and obligations: the size and the capacity of a payload, and the commands PACK1, PACK2, PACK4 and PACK8 on a
window and a source in order (R111 to R119, R22, R42). -/

namespace Sys2Proof.Machine

/-! ## A payload and its capacity -/

/-- A width that applies gives the payload exactly when it fits (R112). -/
theorem packGroup_eq_some_iff {g : List Byte} {b : Width} {n : Nat} (h : packedSize g b = some n) (cap : Nat)
    (out : List Byte) : packGroup g b cap = some out ↔ n ≤ cap ∧ out = payload g b := by
  simp only [packGroup, h]
  split
  · simp only [reduceCtorEq, false_iff]
    omega
  · simp only [Option.some.injEq, eq_comm (a := payload g b), show n ≤ cap by omega, true_and]

/-- A group at width 2 takes its 4 fixed bytes and at most 16 escape bytes (R111). -/
theorem packedSize_w2_bounds {g : List Byte} {n : Nat} (hg : g.length = groupSize) (h : packedSize g .w2 = some n) :
    4 ≤ n ∧ n ≤ 20 := by
  cases h
  have hcount : g.countP (fun v => decide (3 ≤ v.toNat)) ≤ 16 := List.countP_le_length.trans_eq hg
  omega

/-- Settles O41: the length and the bounds of the packed size, and the comparison that the packer makes. -/
theorem payloadHasPackedSize : Obligations.PayloadHasPackedSize := by
  intro g b n hg hn
  refine ⟨payload_length hg hn, packedSize_le hg hn, ?_, ?_, packGroup_eq_some_iff hn⟩
  · rintro rfl
    exact packedSize_w2_bounds hg hn
  · rintro rfl
    cases hn
    exact Nat.le_add_right _ _

/-- At width 1 the group read from memory has size 0 when each of its bytes is 0, and else none (R111, R113). -/
theorem packedSize_w1_sourceBytes (s : State) (n : Nat) :
    packedSize (s.sourceBytes n) .w1 = if ∀ j, j < n → Memory.read s.mem (s.src.toNat + j) = 0 then some 0 else none := by
  have hall : (s.sourceBytes n).all (· == 0) = true ↔ ∀ j, j < n → Memory.read s.mem (s.src.toNat + j) = 0 := by
    simp only [State.sourceBytes, Memory.readBytes, List.all_map, List.all_eq_true, List.mem_range, Function.comp_apply,
      beq_iff_eq]
  simp only [packedSize, hall]

/-! ## A command with a window, from acceptance to completion -/

theorem fileHolds_overwrite (f : ByteFile) {v : List Byte} (h : v.length ≤ 256) :
    fileHolds (ByteFile.overwrite f v) f v := by
  intro k
  rw [ByteFile.entry_overwrite, Nat.min_eq_left h]

theorem outputAtCursor_produce (s : State) (out : List Byte) : outputAtCursor s (s.produce out) out := by
  intro j hj
  rw [State.produce_mem, Memory.read_write,
    if_pos ⟨Nat.le_add_right _ _, by rw [List.length_append]; omega⟩, Nat.add_sub_cancel_left]
  exact List.getD_append _ _ _ _ hj

/-- A number below `2^AW` is kept whole (R29, R30, R31). -/
theorem addrBits_of_lt {c : Config} {v : Nat} (h : v < 2 ^ c.aw) : addrBits c v = BitVec.ofNat 32 v := by
  rw [addrBits, Nat.mod_eq_of_lt h]

section Placed

variable {s : State} {i : Instr}

/-- Operands in order pass the range check (R65). -/
theorem rangeFails_of_placed (hw : usesWindow i = true) (hp : s.placed (sourceLength i s)) : rangeFails i s = false := by
  obtain ⟨-, -, hsrc, hwindow, hapart, -, -⟩ := hp
  rw [Bool.eq_false_iff, Ne, rangeFails_iff hw]
  omega

/-- Operands in order meet the premise of the command (R66). -/
theorem footprintPopulated_of_placed (hp : s.placed (sourceLength i s)) : footprintPopulated i s = true := by
  obtain ⟨-, -, -, -, -, hsrc, hwindow⟩ := hp
  rw [footprintPopulated, hsrc, hwindow, Bool.or_true, Bool.true_and]

/-- A command that a ready block accepts, whose checks and premise hold, runs its operation and completes (R165, R199). -/
theorem checkedCommand_of_ok {op : State → Result} {u : State} (hs : s.ready) (hok : firstError i s = none)
    (hpop : footprintPopulated i s = true) (hu : op (s.accept (commandWord i)) = .next u) :
    command (commandWord i) (checked i op) s = .next u.complete :=
  command_of_accepted (ignoresCommand_of_ready hs _)
    ((checked_of_ok ((firstError_accept i s _).trans hok) ((footprintPopulated_accept i s _).trans hpop)).trans hu)

/-- The whole state after a command that produced `out`: the predictor and the delta buffer are those the operation left,
`DST` advances without wrapping (R30, R32, R42). -/
theorem complete_produce_accept (hs : s.ready) {n : Nat} (hp : s.placed n) (c : Word) (lv db : ByteFile) {out : List Byte}
    (hfits : out.length ≤ s.capacity) :
    ({ s.accept c with lv := lv, db := db }.produce out).complete =
      { s with
        lv := lv
        db := db
        mem := s.mem.write s.dst.toNat (out ++ s.freeBytes (s.capacity - out.length))
        draws := s.draws + (s.capacity - out.length)
        result := BitVec.ofNat 32 out.length
        done := true
        dst := BitVec.ofNat 32 (s.dst.toNat + out.length) } := by
  obtain ⟨-, hdend, -, hwindow, -, -, -⟩ := hp
  have hcap : s.capacity = s.dend.toNat - s.dst.toNat := rfl
  have hcursor : s.dst.toNat + out.length < 2 ^ s.cfg.aw := by omega
  obtain ⟨-, hidle, -, -⟩ := hs
  rw [← addrBits_of_lt hcursor, State.complete, ← hidle]
  rfl

/-- The whole state after a command that ended by `Fail(cause)` (R193, R42). -/
theorem complete_raiseFail_accept (hs : s.ready) (c : Word) (db : ByteFile) (cause : Cause) :
    ({ s.accept c with db := db }.spoilWindow.raiseFail cause).complete =
      { s with
        db := db
        mem := s.mem.write s.dst.toNat (s.freeBytes s.capacity)
        draws := s.draws + s.capacity
        result := 0
        done := true
        fail := true
        cause := cause } := by
  obtain ⟨-, hidle, -, -⟩ := hs
  rw [State.complete, ← hidle]
  rfl

end Placed

/-! ## The PACK commands -/

/-- The PACK commands with their widths (R113 to R116). -/
def packCommands : List (Instr × Width) :=
  [(Instr.pack1, Width.w1), (Instr.pack2, Width.w2), (Instr.pack4, Width.w4), (Instr.pack8, Width.w8)]

/-- The three whose width applies to every group (R114 to R116). -/
theorem mem_packCommands {p : Instr × Width}
    (hp : p ∈ [(Instr.pack2, Width.w2), (Instr.pack4, Width.w4), (Instr.pack8, Width.w8)]) : p ∈ packCommands :=
  List.mem_cons_of_mem _ hp

/-- The rule of a PACK command: its checks, of which there is the range check alone, and the operation at its width
(R113 to R117, R196). -/
theorem exec_packCommand {p : Instr × Width} (hp : p ∈ packCommands) (s : State) :
    exec p.1 s = command (commandWord p.1) (checked p.1 (packOperation p.2)) s ∧ usesWindow p.1 = true ∧
      sourceLength p.1 s = 16 ∧ firstError p.1 s = firstFailing [(rangeFails p.1 s, .range)] := by
  simp only [packCommands, List.mem_cons, List.not_mem_nil, or_false] at hp
  rcases hp with rfl | rfl | rfl | rfl <;> exact ⟨rfl, rfl, rfl, rfl⟩

/-- On a ready block with its operands in order a PACK command runs its operation and completes (R165, R199). -/
theorem exec_packCommand_of_placed {p : Instr × Width} (hp : p ∈ packCommands) {s u : State} (hs : s.ready)
    (hplaced : s.placed 16) (hu : packOperation p.2 (s.accept (commandWord p.1)) = .next u) :
    exec p.1 s = .next u.complete := by
  obtain ⟨hexec, hw, hlen, hchecks⟩ := exec_packCommand hp s
  have hplaced : s.placed (sourceLength p.1 s) := by rwa [hlen]
  have hok : firstError p.1 s = none := by rw [hchecks, rangeFails_of_placed hw hplaced]; rfl
  exact hexec.trans (checkedCommand_of_ok hs hok (footprintPopulated_of_placed hplaced) hu)

/-- The operation with room for the payload (R117). -/
theorem packOperation_of_payload {b : Width} {s : State} {n : Nat} (hn : packedSize (s.sourceBytes 16) b = some n)
    (hroom : n ≤ s.capacity) :
    packOperation b s = .next
      ({ s with db := ByteFile.overwrite s.db (s.sourceBytes 16) }.produce (payload (s.sourceBytes 16) b)) := by
  have hpack := (packGroup_eq_some_iff hn s.capacity _).mpr ⟨hroom, rfl⟩
  simp only [packOperation, groupSize, hpack]

/-- The operation at a width that applies, without room for the payload (R117). -/
theorem packOperation_of_noRoom {b : Width} {s : State} {n : Nat} (hn : packedSize (s.sourceBytes 16) b = some n)
    (hroom : s.capacity < n) :
    packOperation b s = .next
      ({ s with db := ByteFile.overwrite s.db (s.sourceBytes 16) }.spoilWindow.raiseFail .capacity) := by
  simp only [packOperation, packGroup, groupSize, hn, hroom, if_true]

/-- The operation at a width that does not apply (R113, R117). -/
theorem packOperation_of_inapplicable {b : Width} {s : State} (hn : packedSize (s.sourceBytes 16) b = none) :
    packOperation b s = .next
      ({ s with db := ByteFile.overwrite s.db (s.sourceBytes 16) }.spoilWindow.raiseFail .inapplicable) := by
  simp only [packOperation, packGroup, groupSize, hn]

/-- What a PACK operation leaves outside the window and in `DB`, however it ends (R22, R42). -/
theorem packOperation_frame {b : Width} {s u : State} {c : Word} (hs : s.ready)
    (hu : packOperation b (s.accept c) = .next u) :
    fileHolds u.complete.db s.db (s.sourceBytes 16) ∧ keepsOutsideWindow s u.complete := by
  obtain ⟨-, -, -, herr⟩ := hs
  have hdb : u.db = ByteFile.overwrite s.db (s.sourceBytes 16) := by
    rcases packOperation_next hu with ⟨out, -, rfl⟩ | ⟨-, ⟨-, rfl⟩ | ⟨-, rfl⟩⟩ <;> rfl
  have hkeeps : keepsOutsideWindow (s.accept c) u := (packOperation_effect (s := s.accept c) herr hu).keepsOutsideWindow
  refine ⟨?_, hkeeps⟩
  rw [State.complete_db, hdb]
  exact fileHolds_overwrite _ (by rw [State.sourceBytes, Memory.readBytes_length]; decide)

section PackCommand

variable {p : Instr × Width} {s : State} (hp : p ∈ packCommands) (hs : s.ready) (hplaced : s.placed 16)
include hp hs hplaced

/-- A PACK command at a width that applies, with room, writes the payload at the cursor (R112, R117). -/
theorem exec_packCommand_writes {n : Nat} (hn : packedSize (s.sourceBytes 16) p.2 = some n) (hroom : n ≤ s.capacity) :
    ∃ t, exec p.1 s = .next t ∧
      t = { s with
        db := t.db, mem := t.mem, draws := t.draws, result := BitVec.ofNat 32 n, done := true
        dst := BitVec.ofNat 32 (s.dst.toNat + n) } ∧
      fileHolds t.db s.db (s.sourceBytes 16) ∧ (payload (s.sourceBytes 16) p.2).length = n ∧
      outputAtCursor s t (payload (s.sourceBytes 16) p.2) ∧ keepsOutsideWindow s t := by
  obtain rfl : (payload (s.sourceBytes 16) p.2).length = n := payload_length (Memory.readBytes_length _ _ _) hn
  have hu := packOperation_of_payload (s := s.accept (commandWord p.1)) hn hroom
  obtain ⟨hfile, hkeeps⟩ := packOperation_frame hs hu
  exact ⟨_, exec_packCommand_of_placed hp hs hplaced hu, complete_produce_accept hs hplaced _ _ _ hroom, hfile, rfl,
    outputAtCursor_produce _ _, hkeeps⟩

/-- A PACK command whose operation fails (R117, R193). -/
theorem exec_packCommand_fails {cause : Cause}
    (hu : packOperation p.2 (s.accept (commandWord p.1)) = .next
      ({ s.accept (commandWord p.1) with db := ByteFile.overwrite s.db (s.sourceBytes 16) }.spoilWindow.raiseFail cause)) :
    ∃ t, exec p.1 s = .next t ∧
      t = { s with
        db := t.db, mem := t.mem, draws := t.draws, result := 0, done := true, fail := true, cause := cause } ∧
      fileHolds t.db s.db (s.sourceBytes 16) ∧ keepsOutsideWindow s t :=
  ⟨_, exec_packCommand_of_placed hp hs hplaced hu, complete_raiseFail_accept hs _ _ _, packOperation_frame hs hu⟩

end PackCommand

/-- Settles O16: with room the packer gives the payload. -/
theorem packWritesPayload : Obligations.PackWritesPayload := fun _ _ _ hp hs hplaced hn hroom =>
  exec_packCommand_writes (mem_packCommands hp) hs hplaced hn hroom

/-- Settles O17: without room the packer gives no payload, though the width applies. -/
theorem packWithoutRoomFails : Obligations.PackWithoutRoomFails := fun s p _ hp hs hplaced hn hroom =>
  exec_packCommand_fails (mem_packCommands hp) hs hplaced
    (packOperation_of_noRoom (s := s.accept (commandWord p.1)) hn hroom)

/-- Settles O15: width 1 applies to the zero group alone, which takes no byte of the window. -/
theorem pack1TakesZeroGroup : Obligations.Pack1TakesZeroGroup := by
  intro s hs hplaced
  have hmem : (Instr.pack1, Width.w1) ∈ packCommands := List.mem_cons_self
  refine ⟨fun hzero => ?_, fun hother => ?_⟩
  · have hn : packedSize (s.sourceBytes 16) .w1 = some 0 := by rw [packedSize_w1_sourceBytes, if_pos hzero]
    obtain ⟨t, hexec, ht, hfile, -, -, hkeeps⟩ := exec_packCommand_writes hmem hs hplaced hn (Nat.zero_le _)
    rw [Nat.add_zero, BitVec.ofNat_toNat, BitVec.setWidth_eq] at ht
    exact ⟨t, hexec, ht, hfile, hkeeps⟩
  · have hn : packedSize (s.sourceBytes 16) .w1 = none := by
      obtain ⟨j, hj, hne⟩ := hother
      rw [packedSize_w1_sourceBytes, if_neg fun hzero => hne (hzero j hj)]
    exact exec_packCommand_fails hmem hs hplaced
      (packOperation_of_inapplicable (s := s.accept (commandWord .pack1)) hn)

end Sys2Proof.Machine

/-! Lemmas and obligations: the place of the escape bytes in a payload and the round trip of a group (R127, R128, R131). -/

namespace Sys2Proof.Machine

/-- An element that a filter keeps stands after as many kept elements as it had before it. -/
theorem getElem?_filter_countP_take {α : Type} {q : α → Bool} {l : List α} {i : Nat} (hi : i < l.length)
    (hq : q l[i] = true) : (l.filter q)[(l.take i).countP q]? = some l[i] := by
  have hsplit : l.filter q = (l.take i).filter q ++ l[i] :: (l.drop (i + 1)).filter q := by
    rw [← List.filter_cons_of_pos hq, ← List.drop_eq_getElem_cons hi, ← List.filter_append, List.take_append_drop]
  rw [hsplit, List.countP_eq_length_filter, List.getElem?_append_right le_rfl, Nat.sub_self, List.getElem?_cons_zero]

/-- The payload of width 2 or 4: the fixed bytes, then the escape bytes (R84, R112). -/
theorem payload_of_escapeWidth {b : Width} (hb : b = .w2 ∨ b = .w4) (g : List Byte) :
    payload g b = fixedBytes g b ++ escapes b g := by
  rcases hb with rfl | rfl <;> rfl

/-- Settles O44: the reader gets a group back from any bytes that begin with its payload, and a payload has at most
`DECODE_LIMIT` bytes. -/
theorem groupRoundTrip : Obligations.GroupRoundTrip := by
  intro g b n rest hg hn
  have hpack : packGroup g b 24 = some (payload g b) := (packGroup_eq_some_iff hn _ _).mpr ⟨packedSize_le hg hn, rfl⟩
  exact ⟨payload g b, hpack, unpackGroup_of_payload hg hn (List.prefix_append _ _)⟩

/-- Settles O42: the escape bytes are the escaped lanes in order, behind the fixed bytes. -/
theorem escapeBytePosition : Obligations.EscapeBytePosition := by
  intro g b hg hb
  refine ⟨fun i hi hesc => ?_, escapes_length b g, (List.length_filter_le _ _).trans_eq hg⟩
  have hlane : g.getD i 0 = g[i] := List.getD_eq_getElem _ _ (hg ▸ hi)
  have hfixed : 16 / byteSize b = (fixedBytes g b).length := (fixedBytes_length g b).symm
  rw [hlane] at hesc ⊢
  rw [payload_of_escapeWidth hb, hfixed, List.getElem?_append_right (Nat.le_add_right _ _), Nat.add_sub_cancel_left]
  exact getElem?_filter_countP_take (hg ▸ hi) hesc

end Sys2Proof.Machine

/-! Lemmas and obligations: the width selected for a group, the bytes of a channel and the least capacity they need, their
round trip, and the command ENCG on a window and a source in order (R136 to R144, R22, R42). -/

namespace Sys2Proof.Machine

/-! ## The selected width -/

/-- A width that does not apply is passed over (R136). -/
theorem tryWidth_of_inapplicable {g : List Byte} {b : Width} (h : packedSize g b = none) (best : Width × Nat) :
    tryWidth g best b = best := by
  rw [tryWidth, h]

/-- A width that applies is taken if its size is strictly smaller (R136). -/
theorem tryWidth_of_size {g : List Byte} {b : Width} {n : Nat} (h : packedSize g b = some n) (best : Width × Nat) :
    tryWidth g best b = if n < best.2 then (b, n) else best := by
  rw [tryWidth, h]

/-- Width 1 applies to the all-zero group alone, which it packs in no byte (R111). -/
theorem packedSize_w1 (g : List Byte) : packedSize g .w1 = if ∀ v ∈ g, v = 0 then some 0 else none := by
  simp only [packedSize, List.all_eq_true, beq_iff_eq]

/-- The tries of the three widths one after another (R136). -/
theorem selectWidth_eq (g : List Byte) :
    selectWidth g = (tryWidth g (tryWidth g (tryWidth g (.w8, 16) .w1) .w2) .w4).1 := rfl

/-- Settles O45: no size is smaller than the 0 of an all-zero group; of another group the sizes at widths 2 and 4 are
compared with 16 and with each other. -/
theorem selectedWidthClosedForm : Obligations.SelectedWidthClosedForm := by
  intro g _ s2 s4
  have hw2 : packedSize g .w2 = some s2 := rfl
  have hw4 : packedSize g .w4 = some s4 := rfl
  rw [selectWidth_eq, tryWidth_of_size hw4, tryWidth_of_size hw2]
  by_cases hzero : ∀ v ∈ g, v = 0
  · have hw1 : packedSize g .w1 = some 0 := by rw [packedSize_w1, if_pos hzero]
    rw [if_pos hzero, tryWidth_of_size hw1]
    rfl
  · have hw1 : packedSize g .w1 = none := by rw [packedSize_w1, if_neg hzero]
    rw [if_neg hzero, tryWidth_of_inapplicable hw1]
    by_cases h2 : s2 < 16
    · rw [if_pos h2]
      by_cases h4 : s4 < s2
      · rw [if_pos h4, if_neg (by omega), if_pos (by omega)]
      · rw [if_neg h4, if_pos (by omega)]
    · rw [if_neg h2]
      by_cases h4 : s4 < 16
      · rw [if_pos h4, if_neg (by omega), if_pos (by omega)]
      · rw [if_neg h4, if_neg (by omega), if_neg (by omega)]

/-- The width selected for a group applies to it and packs it in at most 16 bytes (R138). -/
theorem packedSize_selectWidth {g : List Byte} (hg : g.length = groupSize) :
    packedSize g (selectWidth g) = some (selectedSize g) ∧ selectedSize g ≤ 16 := by
  have hsize : ∃ n, packedSize g (selectWidth g) = some n ∧ n ≤ 16 := by
    rw [selectedWidthClosedForm g hg]
    split_ifs with hzero h2 h4
    · exact ⟨0, by rw [packedSize_w1, if_pos hzero], Nat.zero_le _⟩
    · exact ⟨_, rfl, h2.1.le⟩
    · exact ⟨_, rfl, h4.1.le⟩
    · exact ⟨16, rfl, le_rfl⟩
  obtain ⟨n, hn, hle⟩ := hsize
  have hn' : selectedSize g = n := by rw [selectedSize, hn, Option.getD_some]
  rw [hn']
  exact ⟨hn, hle⟩

/-- Settles O46: the closed form gives width 1 in its first case alone. -/
theorem selectionProperties : Obligations.SelectionProperties := by
  intro g hg
  obtain ⟨hsize, hle⟩ := packedSize_selectWidth hg
  refine ⟨fun hzero => ?_, fun ⟨v, hv, hne⟩ => ?_, selectedSize g, hsize, hle, payload_length hg hsize⟩
  · exact ⟨by rw [selectedWidthClosedForm g hg, if_pos hzero], by rw [packedSize_w1, if_pos hzero]⟩
  · have hother : ¬∀ v ∈ g, v = 0 := fun hzero => hne (hzero v hv)
    have hw1 : packedSize g .w1 = none := by rw [packedSize_w1, if_neg hother]
    refine ⟨fun hsel => ?_, hw1⟩
    rw [hsel, hw1] at hsize
    cases hsize

/-! ## The bytes of a channel -/

/-- The payload of a group at the width selected for it (R140). -/
def selectedPayload (g : List Byte) : List Byte := payload g (selectWidth g)

/-- The header after the codes of the groups `gs`, the first of which has number `k` (R81, R140). -/
def putCodes : List (List Byte) → Nat → List Byte → List Byte
  | [], _, header => header
  | g :: gs, k, header => putCodes gs (k + 1) (putCode header k (widthCode (selectWidth g)))

/-- The header of a buffer's channel (R81, R140). -/
def channelHeader (buf : List Byte) : List Byte :=
  putCodes (groupsOf buf) 0 (List.replicate (headerSize (buf.length / groupSize)) 0)

/-- The bytes of a buffer's channel, whatever the capacity: the header, then the payloads (R140, R143). -/
def channelBytes (buf : List Byte) : List Byte := channelHeader buf ++ (groupsOf buf).flatMap selectedPayload

theorem selectedPayload_length {g : List Byte} (hg : g.length = groupSize) : (selectedPayload g).length = selectedSize g :=
  payload_length hg (packedSize_selectWidth hg).1

/-- With the headroom the selected width is never short of room (R139). -/
theorem packGroup_selectWidth {g : List Byte} (hg : g.length = groupSize) {cap : Nat} (hcap : decodeLimit ≤ cap) :
    packGroup g (selectWidth g) cap = some (selectedPayload g) := by
  obtain ⟨hsize, -⟩ := packedSize_selectWidth hg
  exact (packGroup_eq_some_iff hsize _ _).mpr ⟨(packedSize_le hg hsize).trans hcap, rfl⟩

/-- The loop succeeds exactly if every group finds the headroom behind the payloads before it, and then gives the header with
the codes, and the payloads (R139 to R141). -/
theorem encodeLoop_eq_some_iff {room : Nat} : ∀ {gs : List (List Byte)} {k : Nat} {header out r : List Byte},
    (∀ g ∈ gs, g.length = groupSize) →
      (encodeLoop room gs k header out = some r ↔
        (∀ j < gs.length, out.length + ((gs.take j).map selectedSize).sum + decodeLimit ≤ room) ∧
          r = putCodes gs k header ++ (out ++ gs.flatMap selectedPayload))
  | [], k, header, out, r, _ => by
    simp [encodeLoop, putCodes, eq_comm]
  | g :: gs, k, header, out, r, hgs => by
    have hg : g.length = groupSize := hgs g List.mem_cons_self
    have hrest : ∀ g' ∈ gs, g'.length = groupSize := fun g' hg' => hgs g' (List.mem_cons_of_mem g hg')
    rw [encodeLoop, List.length_cons, Nat.forall_lt_succ_left']
    by_cases hroom : room - out.length < decodeLimit
    · have hshort : ¬out.length + decodeLimit ≤ room := by simp only [decodeLimit] at hroom ⊢; omega
      simp [hroom, hshort]
    · have hfirst : out.length + decodeLimit ≤ room := by simp only [decodeLimit] at hroom ⊢; omega
      simp only [if_neg hroom, packGroup_selectWidth hg (Nat.le_of_not_lt hroom)]
      rw [encodeLoop_eq_some_iff hrest]
      simp [putCodes, hfirst, selectedPayload_length hg, Nat.add_assoc]

@[simp] theorem groupsOf_length (buf : List Byte) : (groupsOf buf).length = buf.length / groupSize := by
  simp [groupsOf]

/-- The encoder succeeds exactly if the header fits and every group finds the headroom, and then gives the bytes of the
channel (R140, R141). -/
theorem encodeGroups_eq_some_iff {buf out : List Byte} {cap : Nat} :
    encodeGroups buf cap = some out ↔
      (headerSize (buf.length / groupSize) ≤ cap ∧ ∀ k < buf.length / groupSize,
        headerSize (buf.length / groupSize) + sizeBefore buf k + decodeLimit ≤ cap) ∧ out = channelBytes buf := by
  rw [encodeGroups]
  by_cases hcap : cap < headerSize (buf.length / groupSize)
  · simp [hcap, Nat.not_le.mpr hcap]
  · have hle : headerSize (buf.length / groupSize) ≤ cap := Nat.le_of_not_lt hcap
    have hroom : ∀ n, 0 + n + decodeLimit ≤ cap - headerSize (buf.length / groupSize) ↔
        headerSize (buf.length / groupSize) + n + decodeLimit ≤ cap := fun n => by omega
    simp only [if_neg hcap, encodeLoop_eq_some_iff fun _ => length_of_mem_groupsOf, groupsOf_length, List.length_nil,
      List.nil_append, hroom, hle, true_and]
    rfl

/-! ## The least capacity of a channel -/

/-- The greatest of a list is at most a bound exactly if each of its numbers is. -/
theorem foldl_max_le_iff {l : List Nat} {a c : Nat} : l.foldl max a ≤ c ↔ a ≤ c ∧ ∀ x ∈ l, x ≤ c := by
  induction l generalizing a with
  | nil => simp
  | cons x l ih => rw [List.foldl_cons, ih, List.forall_mem_cons, Nat.max_le, and_assoc]

/-- A capacity is enough exactly if it is enough at the start of every group (R143). -/
theorem channelNeed_le_iff {buf : List Byte} {cap : Nat} :
    channelNeed buf ≤ cap ↔
      ∀ k < buf.length / groupSize, headerSize (buf.length / groupSize) + sizeBefore buf k + decodeLimit ≤ cap := by
  simp [channelNeed, foldl_max_le_iff]

theorem headerSize_add_decodeLimit_le_channelNeed {buf : List Byte} (hbuf : 16 ≤ buf.length) :
    headerSize (buf.length / groupSize) + decodeLimit ≤ channelNeed buf :=
  channelNeed_le_iff.mp le_rfl 0 (Nat.div_pos hbuf (by decide))

/-- A buffer of at least one group is encoded exactly at the capacities it needs, and always to the same bytes (R143). -/
theorem encodeGroups_eq_some_iff_channelNeed_le {buf out : List Byte} (hbuf : 16 ≤ buf.length) {cap : Nat} :
    encodeGroups buf cap = some out ↔ channelNeed buf ≤ cap ∧ out = channelBytes buf := by
  have hheader : channelNeed buf ≤ cap → headerSize (buf.length / groupSize) ≤ cap :=
    ((Nat.le_add_right _ _).trans (headerSize_add_decodeLimit_le_channelNeed hbuf)).trans
  rw [encodeGroups_eq_some_iff, ← channelNeed_le_iff, and_iff_right_of_imp hheader]

theorem encodeGroups_of_channelNeed_le {buf : List Byte} (hbuf : 16 ≤ buf.length) {cap : Nat}
    (hcap : channelNeed buf ≤ cap) : encodeGroups buf cap = some (channelBytes buf) :=
  (encodeGroups_eq_some_iff_channelNeed_le hbuf).mpr ⟨hcap, rfl⟩

theorem encodeGroups_of_lt_channelNeed {buf : List Byte} (hbuf : 16 ≤ buf.length) {cap : Nat}
    (hcap : cap < channelNeed buf) : encodeGroups buf cap = none :=
  Option.eq_none_iff_forall_ne_some.mpr fun _ hout =>
    Nat.not_le.mpr hcap ((encodeGroups_eq_some_iff_channelNeed_le hbuf).mp hout).1

@[simp] theorem putCodes_length (gs : List (List Byte)) (k : Nat) (header : List Byte) :
    (putCodes gs k header).length = header.length := by
  induction gs generalizing k header with
  | nil => rfl
  | cons g gs ih => rw [putCodes, ih, putCode_length]

@[simp] theorem channelHeader_length (buf : List Byte) :
    (channelHeader buf).length = headerSize (buf.length / groupSize) := by
  rw [channelHeader, putCodes_length, List.length_replicate]

theorem payloads_length {gs : List (List Byte)} (hgs : ∀ g ∈ gs, g.length = groupSize) :
    (gs.flatMap selectedPayload).length = (gs.map selectedSize).sum := by
  rw [List.length_flatMap, List.map_congr_left fun g hg => selectedPayload_length (hgs g hg)]

theorem channelBytes_length (buf : List Byte) :
    (channelBytes buf).length = headerSize (buf.length / groupSize) + ((groupsOf buf).map selectedSize).sum := by
  rw [channelBytes, List.length_append, channelHeader_length, payloads_length fun _ => length_of_mem_groupsOf]

/-- Before the end stand all the groups (R143). -/
theorem sizeBefore_groups (buf : List Byte) :
    sizeBefore buf (buf.length / groupSize) = ((groupsOf buf).map selectedSize).sum := by
  rw [sizeBefore, List.take_of_length_le (groupsOf_length buf).le]

/-- The selected payloads of a buffer have at most 16 bytes a group (R138, R143). -/
theorem sum_selectedSize_le (buf : List Byte) :
    ((groupsOf buf).map selectedSize).sum ≤ 16 * (buf.length / groupSize) := by
  have hle : ∀ n ∈ (groupsOf buf).map selectedSize, n ≤ 16 := by
    simp only [List.mem_map]
    rintro _ ⟨g, hg, rfl⟩
    exact (packedSize_selectWidth (length_of_mem_groupsOf hg)).2
  simpa [Nat.mul_comm] using List.sum_le_card_nsmul _ 16 hle

/-- Settles O47: the bytes of the channel are the same at every capacity that is enough. -/
theorem channelSizeAndLeastCapacity : Obligations.ChannelSizeAndLeastCapacity := by
  intro buf _ hbuf groups hsize
  have hlength : (channelBytes buf).length = hsize + sizeBefore buf groups :=
    (channelBytes_length buf).trans (congrArg (hsize + ·) (sizeBefore_groups buf).symm)
  have hbound : sizeBefore buf groups ≤ 16 * groups := (sizeBefore_groups buf).trans_le (sum_selectedSize_le buf)
  refine ⟨⟨channelBytes buf, hlength, by omega, by omega, fun cap => encodeGroups_of_channelNeed_le hbuf⟩,
    fun cap => encodeGroups_of_lt_channelNeed hbuf, headerSize_add_decodeLimit_le_channelNeed hbuf⟩

/-! ## The round trip of a channel -/

theorem widthOfCode_widthCode (b : Width) : widthOfCode (widthCode b) = b := by cases b <;> rfl

theorem widthCode_lt (b : Width) : widthCode b < 4 := by cases b <;> decide

/-- A code in slot `i` of a byte is read from slot `i` and from no other (R81). -/
theorem slotCode_eq : ∀ c < 4, ∀ i < 4, ∀ j < 4, c * 4 ^ i % 256 / 4 ^ j % 4 = if j = i then c else 0 := by decide

/-- A slot of a byte after a code was put in slot `i` (R81, R140). -/
theorem slot_or (h : Byte) {c i j : Nat} (hc : c < 4) (hi : i < 4) (hj : j < 4) :
    (h ||| BitVec.ofNat 8 (c * 4 ^ i)).toNat / 4 ^ j % 4 = h.toNat / 4 ^ j % 4 ||| if j = i then c else 0 := by
  have hpow : 4 ^ j = 2 ^ (2 * j) := (Nat.pow_mul 2 2 j).symm
  rw [← slotCode_eq c hc i hi j hj, BitVec.toNat_or, BitVec.toNat_ofNat, hpow, Nat.or_div_two_pow]
  exact Nat.or_mod_two_pow (n := 2)

/-- The code of a group in a header into which the code of group `k` was put (R81, R140). -/
theorem headerCode_putCode {header : List Byte} {k c : Nat} (hk : k / 4 < header.length) (hc : c < 4) (j : Nat) :
    headerCode (putCode header k c) j = headerCode header j ||| if j = k then c else 0 := by
  by_cases hbyte : k / 4 = j / 4
  · have hslot : j = k ↔ j % 4 = k % 4 := by omega
    have hget : (putCode header k c).getD (j / 4) 0 = header.getD (j / 4) 0 ||| BitVec.ofNat 8 (c * 4 ^ (k % 4)) := by
      simp [putCode, List.getD, hbyte, hbyte ▸ hk]
    rw [headerCode, hget, slot_or _ hc (Nat.mod_lt _ (by decide)) (Nat.mod_lt _ (by decide)), headerCode]
    simp only [hslot]
  · have hget : (putCode header k c).getD (j / 4) 0 = header.getD (j / 4) 0 := by
      simp [putCode, List.getD, hbyte]
    rw [headerCode, hget, if_neg (by rintro rfl; exact hbyte rfl), Nat.or_zero, headerCode]

/-- The codes from group `k` on leave the slots before it alone (R81). -/
theorem headerCode_putCodes_of_lt : ∀ {gs : List (List Byte)} {k j : Nat} {header : List Byte},
    k + gs.length ≤ 4 * header.length → j < k → headerCode (putCodes gs k header) j = headerCode header j
  | [], _, _, _, _, _ => rfl
  | g :: gs, k, j, header, hfits, hj => by
    rw [List.length_cons] at hfits
    rw [putCodes, headerCode_putCodes_of_lt (by rw [putCode_length]; omega) (Nat.lt_succ_of_lt hj),
      headerCode_putCode (by omega) (widthCode_lt _), if_neg hj.ne, Nat.or_zero]

/-- In a header whose slots from group `k` on are empty each of the groups from `k` on finds its code (R81, R140). -/
theorem headerCode_putCodes : ∀ {gs : List (List Byte)} {k : Nat} {header : List Byte},
    k + gs.length ≤ 4 * header.length → (∀ j, k ≤ j → headerCode header j = 0) →
      ∀ t (ht : t < gs.length), headerCode (putCodes gs k header) (k + t) = widthCode (selectWidth gs[t])
  | g :: gs, k, header, hfits, hempty, t, ht => by
    rw [List.length_cons] at hfits
    have hput := headerCode_putCode (header := header) (k := k) (by omega) (widthCode_lt (selectWidth g))
    have hfits' : k + 1 + gs.length ≤ 4 * (putCode header k (widthCode (selectWidth g))).length := by
      rw [putCode_length]
      omega
    rw [putCodes]
    cases t with
    | zero =>
      refine (headerCode_putCodes_of_lt hfits' (Nat.lt_succ_self k)).trans ?_
      rw [hput, hempty k le_rfl, if_pos rfl, Nat.zero_or]
      rfl
    | succ t =>
      have hempty' : ∀ j, k + 1 ≤ j → headerCode (putCode header k (widthCode (selectWidth g))) j = 0 := fun j hj => by
        rw [hput, hempty j (by omega), if_neg (by omega), Nat.zero_or]
      rw [show k + (t + 1) = k + 1 + t by omega]
      exact headerCode_putCodes hfits' hempty' t (Nat.lt_of_succ_lt_succ ht)

theorem headerCode_replicate_zero (n j : Nat) : headerCode (List.replicate n 0) j = 0 := by
  have hget : (List.replicate n (0 : Byte)).getD (j / 4) 0 = 0 := by
    rw [List.getD, List.getElem?_replicate]
    split <;> rfl
  rw [headerCode, hget]
  simp

/-- Four groups to a header byte (R81). -/
theorem le_four_mul_headerSize (groups : Nat) : groups ≤ 4 * headerSize groups := by
  rw [headerSize]
  omega

/-- A reader finds the width of each group in any bytes that begin with the header (R81, R144). -/
theorem headerCode_of_channelHeader {buf p : List Byte} (hp : channelHeader buf <+: p) {t : Nat}
    (ht : t < (groupsOf buf).length) : headerCode p t = widthCode (selectWidth (groupsOf buf)[t]) := by
  have hgroups := le_four_mul_headerSize (buf.length / groupSize)
  have hbyte : p.getD (t / 4) 0 = (channelHeader buf).getD (t / 4) 0 := by
    refine getD_of_prefix hp ?_
    rw [channelHeader_length]
    rw [groupsOf_length] at ht
    omega
  have hcode := headerCode_putCodes (gs := groupsOf buf) (k := 0)
    (header := List.replicate (headerSize (buf.length / groupSize)) 0) (by simpa using hgroups)
    (fun j _ => headerCode_replicate_zero _ j) t ht
  rw [headerCode, hbyte, ← hcode, Nat.zero_add]
  rfl

/-- The reader takes the groups one after another from bytes that hold their codes and their payloads (R144). -/
theorem decodeLoop_of_payloads {p : List Byte} : ∀ {gs : List (List Byte)} {k pos : Nat} {buf : List Byte},
    (∀ g ∈ gs, g.length = groupSize) →
    (∀ t (ht : t < gs.length), headerCode p (k + t) = widthCode (selectWidth gs[t])) →
    gs.flatMap selectedPayload <+: p.drop pos →
      decodeLoop p (List.range' k gs.length) pos buf = (buf ++ gs.flatten, pos + (gs.map selectedSize).sum)
  | [], _, _, buf, _, _, _ => by
    simp [decodeLoop]
  | g :: gs, k, pos, buf, hgs, hcodes, hpayloads => by
    have hg : g.length = groupSize := hgs g List.mem_cons_self
    have hcode : headerCode p k = widthCode (selectWidth g) := hcodes 0 (Nat.succ_pos _)
    have hcodes' : ∀ t (ht : t < gs.length), headerCode p (k + 1 + t) = widthCode (selectWidth gs[t]) := fun t ht => by
      rw [Nat.add_right_comm]
      exact hcodes (t + 1) (Nat.succ_lt_succ ht)
    rw [List.flatMap_cons] at hpayloads
    have hfirst : unpackGroup (p.drop pos) (selectWidth g) = (g, selectedSize g) :=
      unpackGroup_of_payload hg (packedSize_selectWidth hg).1 ((List.prefix_append _ _).trans hpayloads)
    have hrest : gs.flatMap selectedPayload <+: p.drop (pos + selectedSize g) := by
      simpa [← selectedPayload_length hg] using hpayloads.drop (selectedPayload g).length
    rw [List.length_cons, List.range'_succ, decodeLoop, hcode, widthOfCode_widthCode, hfirst,
      decodeLoop_of_payloads (fun g' hg' => hgs g' (List.mem_cons_of_mem g hg')) hcodes' hrest]
    simp [Nat.add_assoc]

/-- The first `n` groups are the first `16n` bytes (R135). -/
theorem flatten_groupAt (buf : List Byte) (n : Nat) :
    ((List.range n).map (groupAt buf)).flatten = buf.take (groupSize * n) := by
  induction n with
  | zero => rfl
  | succ n ih =>
    rw [List.range_succ, List.map_append, List.flatten_append, ih, Nat.mul_succ, List.take_add]
    simp [groupAt]

/-- The groups of a buffer of whole groups are the buffer (R135). -/
theorem flatten_groupsOf {buf : List Byte} (hbuf : buf.length % 16 = 0) : (groupsOf buf).flatten = buf := by
  rw [groupsOf, flatten_groupAt, List.take_of_length_le]
  exact (Nat.mul_div_cancel' (Nat.dvd_of_mod_eq_zero hbuf)).ge

/-- Settles O48: the reader finds the codes in the header and the payloads behind it. -/
theorem channelRoundTrip : Obligations.ChannelRoundTrip := by
  intro buf out rest cap hbuf hout
  obtain ⟨-, rfl⟩ := encodeGroups_eq_some_iff.mp hout
  have hheader : channelHeader buf <+: channelBytes buf ++ rest :=
    (List.prefix_append _ _).trans (List.prefix_append _ _)
  have hpayloads : (groupsOf buf).flatMap selectedPayload <+:
      (channelBytes buf ++ rest).drop (headerSize (buf.length / groupSize)) := by
    rw [← channelHeader_length, channelBytes, List.append_assoc, List.drop_left]
    exact List.prefix_append _ _
  have hdecode := decodeLoop_of_payloads (k := 0) (buf := []) (fun _ => length_of_mem_groupsOf)
    (fun t ht => (congrArg _ (Nat.zero_add t)).trans (headerCode_of_channelHeader hheader ht)) hpayloads
  rw [groupsOf_length, ← List.range_eq_range', List.nil_append, flatten_groupsOf hbuf, ← channelBytes_length] at hdecode
  exact hdecode

/-! ## The command ENCG -/

/-- On a ready block with a legal `GLEN` and its operands in order ENCG runs its operation and completes, and no byte outside
the window changes (R142, R165, R199, R42). -/
theorem exec_encg_of_placed {s u : State} (hs : s.ready) (hglen : s.glenLegal = true)
    (hplaced : s.placed s.glen.toNat) (hu : encgOperation (s.accept (commandWord .encg)) = .next u) :
    exec .encg s = .next u.complete ∧ keepsOutsideWindow s u.complete := by
  have hok : firstError .encg s = none := by
    rw [firstError, hglen, rangeFails_of_placed rfl hplaced]
    rfl
  refine ⟨checkedCommand_of_ok hs hok (footprintPopulated_of_placed hplaced) hu, ?_⟩
  obtain ⟨-, -, -, herr⟩ := hs
  exact (encgOperation_effect (s := s.accept (commandWord .encg)) herr hu).keepsOutsideWindow

/-- ENCG's operation at a capacity that is enough (R142). -/
theorem encgOperation_of_some {s : State} {out : List Byte}
    (h : encodeGroups (s.sourceBytes s.glen.toNat) s.capacity = some out) :
    encgOperation s =
      .next ({ s with db := ByteFile.overwrite s.db (s.sourceBytes s.glen.toNat) }.produce out) := by
  simp only [encgOperation, h]

/-- ENCG's operation at a capacity that is not enough (R142). -/
theorem encgOperation_of_none {s : State} (h : encodeGroups (s.sourceBytes s.glen.toNat) s.capacity = none) :
    encgOperation s = .next ({ s with db := unspecifiedFile }.spoilWindow.raiseFail .capacity) := by
  simp only [encgOperation, h]

/-- A legal `GLEN` is that of at least one group and at most a byte file (R28). -/
theorem glen_bounds {s : State} (h : s.glenLegal = true) : 16 ≤ s.glen.toNat ∧ s.glen.toNat ≤ 256 := by
  simp only [State.glenLegal, Bool.and_eq_true, decide_eq_true_eq] at h
  exact h.1

/-- Settles O18: the capacity is enough for the bytes of the channel. -/
theorem encgEncodesBuffer : Obligations.EncgEncodesBuffer := by
  intro s hs hglen hplaced hneed
  obtain ⟨hmin, hmax⟩ := glen_bounds hglen
  have hlength : (s.sourceBytes s.glen.toNat).length = s.glen.toNat := Memory.readBytes_length _ _ _
  have hout : encodeGroups (s.sourceBytes s.glen.toNat) s.capacity = some (channelBytes (s.sourceBytes s.glen.toNat)) :=
    encodeGroups_of_channelNeed_le (hmin.trans_eq hlength.symm) hneed
  have hu := encgOperation_of_some (s := s.accept (commandWord .encg)) hout
  obtain ⟨hexec, hkeeps⟩ := exec_encg_of_placed hs hglen hplaced hu
  exact ⟨_, _, hout, hexec, complete_produce_accept hs hplaced _ _ _ (encodeGroups_length_le hout),
    fileHolds_overwrite _ (hlength.trans_le hmax), outputAtCursor_produce _ _, hkeeps⟩

/-- Settles O19: the capacity is not enough for the bytes of the channel. -/
theorem encgWithoutRoomFails : Obligations.EncgWithoutRoomFails := by
  intro s hs hglen hplaced hneed
  have hlength : (s.sourceBytes s.glen.toNat).length = s.glen.toNat := Memory.readBytes_length _ _ _
  have hout : encodeGroups (s.sourceBytes s.glen.toNat) s.capacity = none :=
    encodeGroups_of_lt_channelNeed ((glen_bounds hglen).1.trans_eq hlength.symm) hneed
  have hu := encgOperation_of_none (s := s.accept (commandWord .encg)) hout
  obtain ⟨hexec, hkeeps⟩ := exec_encg_of_placed hs hglen hplaced hu
  exact ⟨_, hexec, complete_raiseFail_accept hs _ _ _, fun k _ => congrArg _ (ByteFile.entry_unspecified k), hkeeps⟩

end Sys2Proof.Machine

/-! Lemmas and obligations: the bytes of a block whatever the capacity, their size, their round trip, and the predictor a
block leaves to the next (R150 to R156, R159, R160). -/

namespace Sys2Proof.Machine

/-! ## The deltas of a channel -/

@[simp] theorem deltasFrom_length (p : Byte) (cs : List Byte) : (deltasFrom p cs).length = cs.length := by
  induction cs generalizing p with
  | nil => rfl
  | cons c cs ih => rw [deltasFrom, List.length_cons, ih, List.length_cons]

/-- The decoder's running byte is the raw byte, so that it undoes each delta in turn (R104, R151, R160). -/
theorem undelta_deltasFrom (p : Byte) (cs : List Byte) : undelta p (deltasFrom p cs) = cs := by
  obtain ⟨-, -, -, hreconstruct⟩ := zigzagIsBijection
  induction cs generalizing p with
  | nil => rfl
  | cons c cs ih => rw [deltasFrom, undelta, hreconstruct, ih]

@[simp] theorem channelOf_length (recs : List (List Byte)) (k : Nat) : (channelOf recs k).length = recs.length :=
  List.length_map _

theorem le_paddedLength (n : Nat) : n ≤ paddedLength n := by
  simp only [paddedLength, ceilDiv, groupSize]
  omega

/-- A padded buffer is of whole groups (R152). -/
@[simp] theorem paddedLength_div (n : Nat) : paddedLength n / 16 = ceilDiv n 16 :=
  Nat.mul_div_cancel_left _ (by decide)

@[simp] theorem channelDeltas_length (recs : List (List Byte)) (k : Nat) (p : Byte) :
    (channelDeltas recs k p).length = paddedLength recs.length := by
  rw [channelDeltas, List.length_append, List.length_replicate, deltasFrom_length, channelOf_length]
  exact Nat.add_sub_cancel' (le_paddedLength _)

/-- The raw bytes of a channel are got back from its deltas, the padding left out (R160). -/
theorem undelta_take_channelDeltas (recs : List (List Byte)) (k : Nat) (p : Byte) :
    undelta p ((channelDeltas recs k p).take recs.length) = channelOf recs k := by
  rw [channelDeltas, List.take_left' (by simp), undelta_deltasFrom]

/-! ## The bytes of a block -/

/-- The bytes of the channels `ks` of a block, whatever the capacity (R153). -/
def channelsBytes (recs : List (List Byte)) (lv : List Byte) (ks : List Nat) : List Byte :=
  ks.flatMap fun k => channelBytes (channelDeltas recs k (lv.getD k 0))

theorem channelsBytes_cons (recs : List (List Byte)) (lv : List Byte) (k : Nat) (ks : List Nat) :
    channelsBytes recs lv (k :: ks) =
      channelBytes (channelDeltas recs k (lv.getD k 0)) ++ channelsBytes recs lv ks := rfl

/-- A loop that succeeds has appended the bytes of its channels (R153). -/
theorem channelLoop_eq_append {recs : List (List Byte)} {lv : List Byte} {cap : Nat} :
    ∀ {ks : List Nat} {out r : List Byte}, channelLoop recs lv cap ks out = some r → r = out ++ channelsBytes recs lv ks
  | [], out, r, h => by
    cases h
    exact (List.append_nil out).symm
  | k :: ks, out, r, h => by
    simp only [channelLoop] at h
    split at h
    · cases h
    · rename_i p hp
      obtain ⟨-, rfl⟩ := encodeGroups_eq_some_iff.mp hp
      rw [channelLoop_eq_append h, channelsBytes_cons, List.append_assoc]

/-- The result of a block that succeeds (R153). -/
theorem eq_of_encodeBlock_eq_some {recs : List (List Byte)} {vs cap : Nat} {lv out lv' : List Byte}
    (h : encodeBlock recs vs lv cap = some (out, lv')) :
    out = channelsBytes recs lv (List.range vs) ∧ lv' = newPredictor recs vs lv := by
  unfold encodeBlock at h
  split at h
  · cases h
  · rename_i r hr
    cases h
    exact ⟨channelLoop_eq_append hr, rfl⟩

/-- A channel takes its header at least, and at most 16 bytes a group more (R143). -/
theorem channelBytes_length_bounds (buf : List Byte) :
    headerSize (buf.length / groupSize) ≤ (channelBytes buf).length ∧
      (channelBytes buf).length ≤ headerSize (buf.length / groupSize) + 16 * (buf.length / groupSize) := by
  rw [channelBytes_length]
  exact ⟨Nat.le_add_right _ _, Nat.add_le_add_left (sum_selectedSize_le buf) _⟩

/-- Every channel of a block has the same number of groups, so the bounds of a channel bound the block (R156). -/
theorem channelsBytes_length_bounds (recs : List (List Byte)) (lv : List Byte) (ks : List Nat) :
    ks.length * headerSize (ceilDiv recs.length 16) ≤ (channelsBytes recs lv ks).length ∧
      (channelsBytes recs lv ks).length ≤
        ks.length * (headerSize (ceilDiv recs.length 16) + 16 * ceilDiv recs.length 16) := by
  induction ks with
  | nil => simp [channelsBytes]
  | cons k ks ih =>
    have hk := channelBytes_length_bounds (channelDeltas recs k (lv.getD k 0))
    rw [channelDeltas_length, groupSize, paddedLength_div] at hk
    rw [List.length_cons, Nat.succ_mul, Nat.succ_mul, channelsBytes_cons, List.length_append]
    omega

/-! ## The round trip of a block -/

/-- A buffer of whole groups is read from any bytes that begin with those of its channel, since some capacity is enough for
it (R144). -/
theorem decodeGroups_channelBytes {buf : List Byte} (hbuf : buf.length % 16 = 0) (rest : List Byte) :
    decodeGroups (channelBytes buf ++ rest) (buf.length / 16) = (buf, (channelBytes buf).length) := by
  have henough : encodeGroups buf (headerSize (buf.length / groupSize) + channelNeed buf) = some (channelBytes buf) :=
    encodeGroups_eq_some_iff.mpr ⟨⟨Nat.le_add_right _ _, channelNeed_le_iff.mp (Nat.le_add_left _ _)⟩, rfl⟩
  exact channelRoundTrip buf _ rest _ hbuf henough

/-- The reader takes the raw bytes of the channels one after another from bytes that hold them (R160). -/
theorem decodeChannels_of_channelsBytes {recs : List (List Byte)} {lv p : List Byte} :
    ∀ {ks : List Nat} {pos : Nat} {chans : List (List Byte)}, channelsBytes recs lv ks <+: p.drop pos →
      decodeChannels p recs.length lv ks pos chans =
        (chans ++ ks.map (channelOf recs), pos + (channelsBytes recs lv ks).length)
  | [], _, _, _ => by simp [decodeChannels, channelsBytes]
  | k :: ks, pos, chans, ⟨rest, hp⟩ => by
    have hgroups : (channelDeltas recs k (lv.getD k 0)).length / 16 = ceilDiv recs.length 16 := by simp
    have hwhole : (channelDeltas recs k (lv.getD k 0)).length % 16 = 0 := by simp [paddedLength, groupSize]
    rw [channelsBytes_cons, List.append_assoc] at hp
    have hfirst := decodeGroups_channelBytes hwhole (channelsBytes recs lv ks ++ rest)
    rw [hgroups, hp] at hfirst
    have hrest : channelsBytes recs lv ks <+:
        p.drop (pos + (channelBytes (channelDeltas recs k (lv.getD k 0))).length) := by
      rw [← List.drop_drop, ← hp, List.drop_left]
      exact List.prefix_append _ _
    rw [decodeChannels, groupSize, hfirst, decodeChannels_of_channelsBytes hrest, undelta_take_channelDeltas]
    simp [channelsBytes_cons, Nat.add_assoc]

/-- A record is its bytes in all the channels (R150). -/
theorem records_of_channels {recs : List (List Byte)} {vs : Nat} (hrecs : ∀ r ∈ recs, r.length = vs) :
    ((List.range recs.length).map fun i => (List.range vs).map fun k =>
      (((List.range vs).map (channelOf recs)).getD k []).getD i 0) = recs := by
  refine List.ext_getElem (by simp) fun i hi hi' => List.ext_getElem ?_ fun k hk hk' => ?_
  · simp [hrecs recs[i] (List.getElem_mem hi')]
  · have hvs : k < vs := by simpa using hk
    simp [channelOf, hvs, hi', hk']

/-- Settles O50: the reader finds the bytes of the channels one after another. -/
theorem blockRoundTrip : Obligations.BlockRoundTrip := by
  intro recs vs cap lv out lv' rest hrecs hout
  obtain ⟨rfl, -⟩ := eq_of_encodeBlock_eq_some hout
  have hdecode := decodeChannels_of_channelsBytes (p := channelsBytes recs lv (List.range vs) ++ rest) (pos := 0)
    (chans := []) (List.prefix_append _ _)
  rw [decodeBlock, hdecode, List.nil_append, Nat.zero_add, records_of_channels hrecs]

/-! ## The predictor -/

theorem newPredictor_getD_of_lt (recs : List (List Byte)) {vs k : Nat} (lv : List Byte) (hk : k < vs) :
    (newPredictor recs vs lv).getD k 0 = (recs.getLastD []).getD k 0 := by
  rw [newPredictor, List.getD_append _ _ _ _ (by simpa using hk)]
  simp [hk]

theorem newPredictor_getD_of_ge (recs : List (List Byte)) {vs k : Nat} (lv : List Byte) (hk : vs ≤ k) :
    (newPredictor recs vs lv).getD k 0 = lv.getD k 0 := by
  rw [newPredictor, List.getD_append_right _ _ _ _ (by simpa using hk)]
  simp [List.getD, hk]

/-- Settles O49: the bounds of the channels, and the two parts of the new predictor. -/
theorem blockSizeAndPredictor : Obligations.BlockSizeAndPredictor := by
  intro recs vs cap lv out lv' _ hout groups hsize
  have hfits := encodeBlock_length_le hout
  obtain ⟨rfl, rfl⟩ := eq_of_encodeBlock_eq_some hout
  obtain ⟨hmin, hmax⟩ := channelsBytes_length_bounds recs lv (List.range vs)
  rw [List.length_range] at hmin hmax
  exact ⟨hfits, hmin, hmax, fun _ => newPredictor_getD_of_lt recs lv, fun _ => newPredictor_getD_of_ge recs lv⟩

/-- Two predictors with the same bytes below the record size (R155, R159). -/
abbrev samePredictor (vs : Nat) (lv lv2 : List Byte) : Prop := ∀ k, k < vs → lv.getD k 0 = lv2.getD k 0

/-- A channel reads its own byte of the predictor alone (R153). -/
theorem channelLoop_congr {recs : List (List Byte)} {lv lv2 : List Byte} {cap : Nat} {ks : List Nat} (out : List Byte)
    (h : ∀ k ∈ ks, lv.getD k 0 = lv2.getD k 0) : channelLoop recs lv cap ks out = channelLoop recs lv2 cap ks out := by
  induction ks generalizing out with
  | nil => rfl
  | cons k ks ih =>
    obtain ⟨hk, hks⟩ := List.forall_mem_cons.mp h
    simp only [channelLoop, hk, ih _ hks]

/-- A block is its channels and the predictor it leaves (R153). -/
theorem encodeBlock_eq_map (recs : List (List Byte)) (vs : Nat) (lv : List Byte) (cap : Nat) :
    encodeBlock recs vs lv cap =
      (channelLoop recs lv cap (List.range vs) []).map fun out => (out, newPredictor recs vs lv) := by
  rw [encodeBlock]
  cases channelLoop recs lv cap (List.range vs) [] <;> rfl

/-- A block, then the other blocks with the predictor it leaves (R178, R181). -/
theorem blockLoop_cons (vs cap : Nat) (blk : List (List Byte)) (rest : List (List (List Byte))) (lv out : List Byte) :
    blockLoop vs cap (blk :: rest) lv out =
      (channelLoop blk lv (cap - out.length) (List.range vs) []).bind fun b =>
        blockLoop vs cap rest (newPredictor blk vs lv) (out ++ b) := by
  rw [blockLoop, encodeBlock_eq_map]
  cases channelLoop blk lv (cap - out.length) (List.range vs) [] <;> rfl

/-- The bytes of blocks depend on the predictor's bytes below the record size alone (R159). -/
theorem blockLoop_congr {vs cap : Nat} {blks : List (List (List Byte))} {lv lv2 : List Byte} (h : samePredictor vs lv lv2)
    (out : List Byte) : blockLoop vs cap blks lv out = blockLoop vs cap blks lv2 out := by
  induction blks generalizing lv lv2 out with
  | nil => rfl
  | cons blk blks ih =>
    have hnew : samePredictor vs (newPredictor blk vs lv) (newPredictor blk vs lv2) := fun k hk => by
      rw [newPredictor_getD_of_lt blk lv hk, newPredictor_getD_of_lt blk lv2 hk]
    rw [blockLoop_cons, blockLoop_cons, channelLoop_congr _ fun k hk => h k (List.mem_range.mp hk)]
    exact congrArg _ (funext fun b => ih hnew (out ++ b))

/-- The predictor after blocks in order (R155). -/
def predictorAfter (vs : Nat) (blks : List (List (List Byte))) (lv : List Byte) : List Byte :=
  blks.foldl (fun lv blk => newPredictor blk vs lv) lv

/-- Blocks after other blocks go on with the predictor and the bytes these leave (R159, R181). -/
theorem blockLoop_append (vs cap : Nat) (first second : List (List (List Byte))) (lv out : List Byte) :
    blockLoop vs cap (first ++ second) lv out =
      (blockLoop vs cap first lv out).bind (blockLoop vs cap second (predictorAfter vs first lv)) := by
  induction first generalizing lv out with
  | nil => rfl
  | cons blk first ih =>
    rw [List.cons_append, blockLoop_cons, blockLoop_cons, Option.bind_assoc]
    exact congrArg _ (funext fun b => ih _ _)

/-- After blocks the predictor's bytes below the record size are those of the last record of the last block (R155). -/
theorem predictorAfter_getD {vs k : Nat} {blks : List (List (List Byte))} {blk : List (List Byte)} (lv : List Byte)
    (hblk : blks.getLast? = some blk) (hk : k < vs) :
    (predictorAfter vs blks lv).getD k 0 = (blk.getLastD []).getD k 0 := by
  obtain ⟨before, rfl⟩ := List.getLast?_eq_some_iff.mp hblk
  rw [predictorAfter, List.foldl_append]
  exact newPredictor_getD_of_lt blk _ hk

/-- Settles O51: the carried predictor and the one seeded anew have the same bytes below the record size. -/
theorem predictorContinuity : Obligations.PredictorContinuity := by
  intro vs cap first second blk lv lv2 out out2 hblk _ hout hseed
  rw [blockLoop_append, hout, Option.bind_some]
  exact blockLoop_congr (fun k hk => (predictorAfter_getD lv hblk hk).trans (hseed k hk).symm) out2

end Sys2Proof.Machine

/-! Lemmas and obligations: the commands SEED and ENCB on operands in order (R157, R158, R22, R42). -/

namespace Sys2Proof.Machine

/-- A legal record size is at most that of a byte file (R26). -/
theorem vsize_le {s : State} (h : s.vsizeLegal = true) : s.vsize.toNat ≤ 256 := by
  obtain ⟨k, -, hk, hsize⟩ := legalRecordSize_iff.mp h
  omega

/-! ## The command SEED -/

/-- SEED has no window, so its range check is that of the source (R65, R157). -/
theorem rangeFails_seed (s : State) : rangeFails .seed s = decide (2 ^ s.cfg.aw < s.src.toNat + s.vsize.toNat) :=
  Bool.or_false _

/-- Settles O14: SEED checks the record size, then that its source does not wrap. -/
theorem seedLoadsPredictor : Obligations.SeedLoadsPredictor := by
  refine ⟨fun s hs hlegal hsrc hpop => ?loads, fun s hs hillegal => ?vsize, fun s hs hlegal hwraps => ?range, rfl⟩
  case loads =>
    have hok : firstError .seed s = none := by
      rw [firstError, hlegal, rangeFails_seed, decide_eq_false (Nat.not_lt.mpr hsrc)]
      rfl
    have hfoot : footprintPopulated .seed s = true := (Bool.and_true _).trans hpop
    refine ⟨_, checkedCommand_of_ok (op := seedOperation) hs hok hfoot rfl, ?_, ?_⟩
    · obtain ⟨-, hidle, -, -⟩ := hs
      rw [State.complete, ← hidle]
      rfl
    · exact fileHolds_overwrite _ ((Memory.readBytes_length _ _ _).trans_le (vsize_le hlegal))
  case vsize => exact exec_of_error hs (by rw [firstError, hillegal]; rfl)
  case range => exact exec_of_error hs (by rw [firstError, hlegal, rangeFails_seed, decide_eq_true hwraps]; rfl)

/-! ## The command ENCB -/

/-- On a ready block with legal sizes, a valid predictor and its operands in order ENCB runs its operation and completes, and
no byte outside the window changes (R158, R165, R199, R42). -/
theorem exec_encb_of_placed {s u : State} (hs : s.ready) (hvsize : s.vsizeLegal = true) (hvcount : s.vcountLegal = true)
    (hvalid : s.lvvalid = true) (hplaced : s.placed (s.vcount.toNat * s.vsize.toNat))
    (hu : encbOperation (s.accept (commandWord .encb)) = .next u) :
    exec .encb s = .next u.complete ∧ keepsOutsideWindow s u.complete := by
  have hok : firstError .encb s = none := by
    rw [firstError, hvsize, hvcount, hvalid, rangeFails_of_placed rfl hplaced]
    rfl
  refine ⟨checkedCommand_of_ok hs hok (footprintPopulated_of_placed hplaced) hu, ?_⟩
  obtain ⟨-, -, -, herr⟩ := hs
  exact (encbOperation_effect (s := s.accept (commandWord .encb)) herr hu).keepsOutsideWindow

/-- ENCB's operation on a block that fits (R158). -/
theorem encbOperation_of_some {s : State} {out lv' : List Byte}
    (h : encodeBlock s.records s.vsize.toNat (ByteFile.bytes s.lv 256) s.capacity = some (out, lv')) :
    encbOperation s = .next
      ({ s with
          lv := ByteFile.overwrite s.lv (lv'.take s.vsize.toNat)
          db := ByteFile.overwrite s.db (channelDeltas s.records (s.vsize.toNat - 1)
            ((ByteFile.bytes s.lv 256).getD (s.vsize.toNat - 1) 0)) }.produce out) := by
  simp only [encbOperation, h]

/-- ENCB's operation on a block that does not fit (R158). -/
theorem encbOperation_of_none {s : State}
    (h : encodeBlock s.records s.vsize.toNat (ByteFile.bytes s.lv 256) s.capacity = none) :
    encbOperation s = .next ({ s with db := unspecifiedFile }.spoilWindow.raiseFail .capacity) := by
  simp only [encbOperation, h]

/-- A legal `VCOUNT` is that of at least one record and at most 256 (R27). -/
theorem vcount_bounds {s : State} (h : s.vcountLegal = true) : 1 ≤ s.vcount.toNat ∧ s.vcount.toNat ≤ 256 := by
  simp only [State.vcountLegal, Bool.and_eq_true, decide_eq_true_eq] at h
  exact h

@[simp] theorem State.records_length (s : State) : s.records.length = s.vcount.toNat := by
  simp [State.records]

/-- The last record of a block of at least one (R150, R158). -/
theorem State.records_getLastD {s : State} (h : 1 ≤ s.vcount.toNat) :
    s.records.getLastD [] =
      s.mem.readBytes (s.src.toNat + (s.vcount.toNat - 1) * s.vsize.toNat) s.vsize.toNat := by
  obtain ⟨n, hn⟩ := Nat.exists_eq_add_of_le' h
  rw [State.records, hn, List.range_succ, List.map_append, List.map_singleton, List.getLastD_concat]
  rfl

theorem map_getD_range (l : List Byte) : (List.range l.length).map (fun k => l.getD k 0) = l :=
  List.ext_getElem (by simp) fun k _ hk => by simp [List.getD, hk]

/-- Below the record size the new predictor is the last record (R155). -/
theorem take_newPredictor {recs : List (List Byte)} {vs : Nat} (lv : List Byte) (h : (recs.getLastD []).length = vs) :
    (newPredictor recs vs lv).take vs = recs.getLastD [] := by
  rw [newPredictor, List.take_left' (by simp), ← h, map_getD_range]

/-- A byte of a file read whole is that of its entry (R20). -/
theorem ByteFile.bytes_getD (f : ByteFile) (k : Nat) : (ByteFile.bytes f 256).getD k 0 = (ByteFile.entry f k).val := by
  rw [ByteFile.bytes, List.take_of_length_le (by simp), ByteFile.entry]
  exact List.getD_map _ (Entry.mk 0 false) Entry.val

/-- The padded deltas of at most 256 records fit a byte file (R152). -/
theorem paddedLength_le {n : Nat} (h : n ≤ 256) : paddedLength n ≤ 256 := by
  simp only [paddedLength, ceilDiv, groupSize]
  omega

/-- Settles O20: below the record size the new predictor is the last record, and the deltas fit `DB`. -/
theorem encbEncodesBlock : Obligations.EncbEncodesBlock := by
  intro s out lv' hs hvsize hvcount hvalid hplaced hout
  obtain ⟨hmin, hmax⟩ := vcount_bounds hvcount
  have hlast := State.records_getLastD hmin
  have hlastLength : (s.records.getLastD []).length = s.vsize.toNat := by rw [hlast, Memory.readBytes_length]
  have hu := encbOperation_of_some (s := s.accept (commandWord .encb)) hout
  obtain ⟨hexec, hkeeps⟩ := exec_encb_of_placed hs hvsize hvcount hvalid hplaced hu
  refine ⟨_, hexec, complete_produce_accept hs hplaced _ _ _ (encodeBlock_length_le hout), ?lv, ?db,
    outputAtCursor_produce _ _, hkeeps⟩
  case lv =>
    obtain ⟨-, rfl⟩ := eq_of_encodeBlock_eq_some hout
    rw [← hlast, ← take_newPredictor (ByteFile.bytes s.lv 256) hlastLength]
    exact fileHolds_overwrite _ ((List.length_take_le _ _).trans (vsize_le hvsize))
  case db =>
    rw [← ByteFile.bytes_getD]
    refine fileHolds_overwrite _ ?_
    rw [channelDeltas_length, State.records_length]
    exact paddedLength_le hmax

/-- Settles O21: the operation ends by `Fail(CAPACITY)`, which leaves the predictor and the cursor alone. -/
theorem encbWithoutRoomFails : Obligations.EncbWithoutRoomFails := by
  intro s hs hvsize hvcount hvalid hplaced hout
  have hu := encbOperation_of_none (s := s.accept (commandWord .encb)) hout
  obtain ⟨hexec, hkeeps⟩ := exec_encb_of_placed hs hvsize hvcount hvalid hplaced hu
  exact ⟨_, hexec, complete_raiseFail_accept hs _ _ _, fun k _ => congrArg _ (ByteFile.entry_unspecified k), hkeeps⟩

end Sys2Proof.Machine

/-! Lemmas and obligations: acceptance and completion of a command, NOP and CLR, and the registers each instruction leaves
alone (R165 to R170, R66, R215). -/

namespace Sys2Proof.Machine

/-! ## Acceptance -/

/-- A word is accepted by an idle block out of reset, with no failure pending unless it is the word of CLR (R165, R215). -/
theorem ignoresCommand_eq_false_iff {s : State} {c : Word} : s.ignoresCommand c = false ↔
    s.rst = false ∧ s.inFlight = none ∧ ((s.fail = false ∧ s.err = false) ∨ c = 0x00000001) := by
  cases hfail : s.fail <;> cases herr : s.err <;> simp [State.ignoresCommand, State.busy, hfail, herr, and_assoc]

/-- While a failure is pending every word but that of CLR is ignored (R165, R168). -/
theorem ignoresCommand_of_pending {s : State} {c : Word} (h : s.fail = true ∨ s.err = true) (hc : c ≠ 0x00000001) :
    s.ignoresCommand c = true := by
  by_contra hacc
  obtain ⟨-, -, hfail, herr⟩ := ready_of_not_ignored (Bool.eq_false_of_not_eq_true hacc) hc
  simp [hfail, herr] at h

/-- A write to `CMD` is the rule of its word, legal or not, under acceptance and completion (R165). -/
theorem writeCommand_eq_command (c : Word) : ∃ op, ∀ s, writeCommand c s = command c op s := by
  cases h : decodeCommand c with
  | ok i =>
    obtain ⟨op, hop⟩ := exec_eq_command (isCommand_of_decodeCommand h)
    exact ⟨op, fun s => by rw [writeCommand_of_decoded h, hop, commandWord_of_decodeCommand h]⟩
  | error e => exact ⟨_, writeCommand_of_illegal h⟩

theorem writeCommand_of_ignored {s : State} {c : Word} (h : s.ignoresCommand c = true) : writeCommand c s = .next s := by
  obtain ⟨op, hop⟩ := writeCommand_eq_command c
  rw [hop, command_of_ignored h]

/-- While `rst = 1` a write to any register, `CMD` included, is ignored (R215). -/
theorem writeRegister_of_rst {s : State} (h : s.rst = true) (off : WordOff) (v : Word) :
    writeRegister off v s = .next s := by
  by_cases hoff : off = offCmd
  · rw [hoff, writeRegister_cmd, writeCommand_of_ignored (ignoresCommand_of_rst h v)]
  · rw [writeRegister_of_ne_cmd hoff, regWrite, h]
    rfl

/-- What an accepted word does depends on the accepted state alone (R165). -/
theorem command_congr_accept {c : Word} {op : State → Result} {r s : State} (hr : r.ignoresCommand c = false)
    (hs : s.ignoresCommand c = false) (h : r.accept c = s.accept c) : command c op r = command c op s := by
  simp [command, hr, hs, h]

/-- Settles O58: taken up again, the word in flight is accepted in the state in which it was accepted at first. -/
theorem startThenCompleteIsOneTransition : Obligations.StartThenCompleteIsOneTransition := by
  intro s c hacc
  have hstart : startCommand c s = s.accept c := by simp [startCommand, hacc]
  have hagain : State.ignoresCommand { s.accept c with inFlight := none } c = false := by
    obtain ⟨hrst, -, hfree⟩ := ignoresCommand_eq_false_iff.mp hacc
    exact ignoresCommand_eq_false_iff.mpr ⟨hrst, rfl, hfree⟩
  obtain ⟨op, hop⟩ := writeCommand_eq_command c
  rw [hstart, completeInFlight_of_some (State.accept_inFlight s c), hop, hop]
  exact command_congr_accept hagain hacc rfl

/-! ## NOP and CLR -/

/-- Settles O9: its rule writes `RESULT` alone, and its word is not that of CLR. -/
theorem nopClearsResult : Obligations.NopClearsResult :=
  ⟨fun _ hs => resultCommand_of_ready hs _ 0,
    fun _ hpending => exec_of_ignored rfl (ignoresCommand_of_pending hpending (by decide)),
    decodeCommand_commandWord (i := .nop) rfl⟩

/-- Settles O10: an idle block accepts CLR's word over a pending failure, and ignores every other. -/
theorem clrClearsFailure : Obligations.ClrClearsFailure := by
  refine ⟨fun s hrst hidle => ?clears,
    fun s c hpending hc => writeCommand_of_ignored (ignoresCommand_of_pending hpending hc),
    decodeCommand_commandWord (i := .clr) rfl⟩
  case clears =>
    have hacc : s.ignoresCommand (commandWord .clr) = false :=
      ignoresCommand_eq_false_iff.mpr ⟨hrst, hidle, .inr (by decide)⟩
    refine (command_of_accepted (op := fun r => .next r.clearFailure) hacc rfl).trans ?_
    rw [State.complete, ← hidle]
    rfl

/-! ## What the rule of a command answers and what it keeps -/

/-- The registers of the block that the instruction `i` does not write are in `t` as in `s` (R26 to R31, R169). -/
def RegistersKept (i : Instr) (s t : State) : Prop :=
  (i ≠ .seed → i ≠ .encb → t.lv = s.lv) ∧ (usesWindow i = false → t.db = s.db ∧ t.dst = s.dst) ∧
    t.vsize = s.vsize ∧ t.vcount = s.vcount ∧ t.glen = s.glen ∧ t.src = s.src ∧ t.dend = s.dend

theorem registersKept_refl (i : Instr) (s : State) : RegistersKept i s s :=
  ⟨fun _ _ => rfl, fun _ => ⟨rfl, rfl⟩, rfl, rfl, rfl, rfl, rfl⟩

/-- The rule of the command `i` answers a next state, unless its source or its window is not populated, and keeps the
registers that are not the command's (R66, R165, R169). -/
structure CommandRule (i : Instr) (rule : State → Result) : Prop where
  answers : ∀ s, (∃ u, rule s = .next u) ∨ (footprintPopulated i s = false ∧ rule s = .refused .unpopulatedMemory)
  keeps : ∀ {s u}, rule s = .next u → RegistersKept i s u

/-- A rule with no check and no premise. -/
theorem commandRule_of_update {i : Instr} {f : State → State} (h : ∀ s, RegistersKept i s (f s)) :
    CommandRule i (fun s => .next (f s)) where
  answers s := .inl ⟨f s, rfl⟩
  keeps := by
    rintro s u ⟨⟩
    exact h s

/-- An operation that always answers, under its checks and its premise (R66, R199). -/
theorem commandRule_of_checked {i : Instr} {op : State → Result} (hanswers : ∀ s, ∃ u, op s = .next u)
    (hkeeps : ∀ {s u}, op s = .next u → RegistersKept i s u) : CommandRule i (checked i op) where
  answers s := by
    cases herr : firstError i s with
    | some c => exact .inl ⟨_, checked_of_error herr⟩
    | none =>
      cases hpop : footprintPopulated i s with
      | true => exact .inl (checked_of_ok herr hpop ▸ hanswers s)
      | false => exact .inr ⟨rfl, by simp [checked, herr, hpop]⟩
  keeps h := by
    rcases checked_next h with ⟨c, -, rfl⟩ | ⟨-, -, hu⟩
    · exact registersKept_refl i _
    · exact hkeeps hu

theorem packOperation_answers (b : Width) (s : State) : ∃ u, packOperation b s = .next u := by
  cases hn : packedSize (s.sourceBytes 16) b with
  | none => exact ⟨_, packOperation_of_inapplicable hn⟩
  | some n =>
    rcases Nat.lt_or_ge s.capacity n with hroom | hroom
    · exact ⟨_, packOperation_of_noRoom hn hroom⟩
    · exact ⟨_, packOperation_of_payload hn hroom⟩

theorem encgOperation_answers (s : State) : ∃ u, encgOperation s = .next u := by
  cases hout : encodeGroups (s.sourceBytes s.glen.toNat) s.capacity with
  | none => exact ⟨_, encgOperation_of_none hout⟩
  | some out => exact ⟨_, encgOperation_of_some hout⟩

theorem encbOperation_answers (s : State) : ∃ u, encbOperation s = .next u := by
  cases hout : encodeBlock s.records s.vsize.toNat (ByteFile.bytes s.lv 256) s.capacity with
  | none => exact ⟨_, encbOperation_of_none hout⟩
  | some r => exact ⟨_, encbOperation_of_some hout⟩

/-- A command with a window may write `DB` and `DST`. -/
theorem registersKept_of_window {i : Instr} {s t : State} (hw : usesWindow i = true)
    (hlv : i ≠ .seed → i ≠ .encb → t.lv = s.lv)
    (hconfig : t.vsize = s.vsize ∧ t.vcount = s.vcount ∧ t.glen = s.glen ∧ t.src = s.src ∧ t.dend = s.dend) :
    RegistersKept i s t :=
  ⟨hlv, fun hno => absurd (hw.symm.trans hno) nofun, hconfig⟩

theorem commandRule_pack {i : Instr} (hw : usesWindow i = true) (b : Width) :
    CommandRule i (checked i (packOperation b)) :=
  commandRule_of_checked (packOperation_answers b) fun h => by
    rcases packOperation_next h with ⟨out, -, rfl⟩ | ⟨-, ⟨-, rfl⟩ | ⟨-, rfl⟩⟩ <;>
      exact registersKept_of_window hw (fun _ _ => rfl) ⟨rfl, rfl, rfl, rfl, rfl⟩

theorem commandRule_encg : CommandRule .encg (checked .encg encgOperation) :=
  commandRule_of_checked encgOperation_answers fun h => by
    rcases encgOperation_next h with ⟨out, -, rfl⟩ | ⟨-, rfl⟩ <;>
      exact registersKept_of_window rfl (fun _ _ => rfl) ⟨rfl, rfl, rfl, rfl, rfl⟩

theorem commandRule_encb : CommandRule .encb (checked .encb encbOperation) :=
  commandRule_of_checked encbOperation_answers fun h => by
    rcases encbOperation_next h with ⟨out, lv', -, rfl⟩ | ⟨-, rfl⟩ <;>
      exact registersKept_of_window rfl (fun _ hne => absurd rfl hne) ⟨rfl, rfl, rfl, rfl, rfl⟩

theorem commandRule_seed : CommandRule .seed (checked .seed seedOperation) :=
  commandRule_of_checked (fun _ => ⟨_, rfl⟩) fun h => by
    cases h
    exact ⟨fun hne => absurd rfl hne, fun _ => ⟨rfl, rfl⟩, rfl, rfl, rfl, rfl, rfl⟩

theorem commandRule_result (i : Instr) (v : Word) : CommandRule i (fun r => .next (r.setResult v)) :=
  commandRule_of_update fun _ => ⟨fun _ _ => rfl, fun _ => ⟨rfl, rfl⟩, rfl, rfl, rfl, rfl, rfl⟩

theorem commandRule_clr : CommandRule .clr (fun r => .next r.clearFailure) :=
  commandRule_of_update fun _ => ⟨fun _ _ => rfl, fun _ => ⟨rfl, rfl⟩, rfl, rfl, rfl, rfl, rfl⟩

/-- A command is its rule under acceptance and completion (R165). -/
theorem exec_eq_commandRule {i : Instr} (hi : isCommand i = true) :
    ∃ rule, CommandRule i rule ∧ ∀ s, exec i s = command (commandWord i) rule s := by
  cases i with
  | nop => exact ⟨_, commandRule_result .nop 0, fun _ => rfl⟩
  | clr => exact ⟨_, commandRule_clr, fun _ => rfl⟩
  | seed => exact ⟨_, commandRule_seed, fun _ => rfl⟩
  | zz8 a => exact ⟨_, commandRule_result (.zz8 a) ((zigzag8 a).setWidth 32), fun _ => rfl⟩
  | dz8 a b => exact ⟨_, commandRule_result (.dz8 a b) ((delta8 a b).setWidth 32), fun _ => rfl⟩
  | pack1 => exact ⟨_, commandRule_pack (i := .pack1) rfl .w1, fun _ => rfl⟩
  | pack2 => exact ⟨_, commandRule_pack (i := .pack2) rfl .w2, fun _ => rfl⟩
  | pack4 => exact ⟨_, commandRule_pack (i := .pack4) rfl .w4, fun _ => rfl⟩
  | pack8 => exact ⟨_, commandRule_pack (i := .pack8) rfl .w8, fun _ => rfl⟩
  | encg => exact ⟨_, commandRule_encg, fun _ => rfl⟩
  | encb => exact ⟨_, commandRule_encb, fun _ => rfl⟩
  | width1 | width2 | width4 | width8 | formatV1 => cases hi

/-! ## Completion -/

/-- The command answers a next state in which it has completed: `BUSY` is 0 and `DONE` is 1 (R165). -/
def Completes (r : Result) : Prop := ∃ t, r = .next t ∧ t.inFlight = none ∧ t.done = true

/-- An accepted command completes, unless its source or its window is not populated (R165, R66). -/
theorem exec_completes_or_refused {i : Instr} {s : State} (hi : isCommand i = true)
    (hacc : s.ignoresCommand (commandWord i) = false) :
    Completes (exec i s) ∨ (footprintPopulated i s = false ∧ exec i s = .refused .unpopulatedMemory) := by
  obtain ⟨rule, hrule, hexec⟩ := exec_eq_commandRule hi
  rw [hexec]
  rcases hrule.answers (s.accept (commandWord i)) with ⟨u, hu⟩ | ⟨hpop, hrefused⟩
  · exact .inl ⟨u.complete, command_of_accepted hacc hu, rfl, rfl⟩
  · exact .inr ⟨(footprintPopulated_accept i s _).symm.trans hpop, by simp [command, hacc, hrefused]⟩

/-- Settles O8: its premise holds, so the command is not refused. -/
theorem populatedCommandCompletes : Obligations.PopulatedCommandCompletes := by
  intro s i hi hs hpop
  refine (exec_completes_or_refused hi (ignoresCommand_of_ready hs _)).resolve_right ?_
  rintro ⟨hunpop, -⟩
  exact absurd (hpop.symm.trans hunpop) nofun

/-- An accepted word completes, legal or not, or is refused for memory that is not populated (R165, R66). -/
theorem writeCommand_completes_or_refused {s : State} {c : Word} (hacc : s.ignoresCommand c = false) :
    Completes (writeCommand c s) ∨ writeCommand c s = .refused .unpopulatedMemory := by
  cases h : decodeCommand c with
  | ok i =>
    rw [writeCommand_of_decoded h]
    rw [← commandWord_of_decodeCommand h] at hacc
    exact (exec_completes_or_refused (isCommand_of_decodeCommand h) hacc).imp_right And.right
  | error e =>
    rw [writeCommand_of_illegal h]
    exact .inl ⟨_, command_of_accepted (op := fun r => .next (r.raiseErr .opcode)) hacc rfl, rfl, rfl⟩

/-- Settles O7: the ignored writes, the accepted ones, and those of an illegal word. -/
theorem commandIsIgnoredOrCompletes : Obligations.CommandIsIgnoredOrCompletes := by
  refine fun s c => ⟨fun hbusy => writeRegister_of_busy hbusy offCmd c, writeRegister_of_rst,
    fun hpending hc => writeCommand_of_ignored (ignoresCommand_of_pending hpending hc),
    fun hrst hidle hfree => writeCommand_completes_or_refused (ignoresCommand_eq_false_iff.mpr ⟨hrst, hidle, hfree⟩),
    fun hs hillegal => ?illegal⟩
  case illegal =>
    obtain ⟨-, hopcode⟩ := illegalWordsRaiseOpcode
    cases h : decodeCommand c with
    | ok i => exact absurd h (hillegal i)
    | error e => exact ⟨_, hopcode s c e hs h, rfl, rfl⟩

/-! ## The registers an instruction keeps -/

/-- The rows of the wire format reach no register of the block (R80, R87). -/
theorem BlockKept.registersKept {s t : State} (h : BlockKept s t) (i : Instr) : RegistersKept i s t := by
  rw [← h]
  exact registersKept_refl i s

/-- Settles O27: a command that is not ignored writes what its rule writes, and the other rows write no register. -/
theorem whoWritesWhichRegister : Obligations.WhoWritesWhichRegister := by
  intro s t i h
  cases hi : isCommand i with
  | false => exact (exec_blockKept hi h).registersKept i
  | true =>
    obtain ⟨rule, hrule, hexec⟩ := exec_eq_commandRule hi
    rw [hexec] at h
    rcases command_next h with ⟨-, rfl⟩ | ⟨-, u, hu, rfl⟩
    · exact registersKept_refl i _
    · have hkept : RegistersKept i (s.accept (commandWord i)) u := hrule.keeps hu
      exact hkept

end Sys2Proof.Machine

/-! Lemmas and obligations: the format byte, the number of records of a block, and the least capacity of a stream (R176,
R177, R182). -/

namespace Sys2Proof.Machine

/-! ## The format byte -/

/-- The host's store at an address of the populated memory of an idle block (R50, R66). -/
theorem execFormatV1_of_room {s : State} (hidle : s.inFlight = none) (hroom : 1 + s.call.vs ≤ s.call.cap)
    (hspace : s.call.out + 1 ≤ 2 ^ s.cfg.aw) (hpop : covers s.cfg s.call.out (s.call.out + 1) = true) :
    execFormatV1 s = .next { s with mem := s.mem.write s.call.out [formatByte] } := by
  rw [execFormatV1, if_neg (Nat.not_lt.mpr hroom),
    hostAccess_of_ok (.inr hspace) hpop (handOffKept_of_idle hidle _ _ _)]

/-- Settles O57: the capacity test of R176, then a store of one byte. -/
theorem formatByteIsWrittenFirst : Obligations.FormatByteIsWrittenFirst := by
  refine fun s hidle => ⟨fun hshort => if_pos hshort, fun hroom hspace hpop =>
    ⟨_, execFormatV1_of_room hidle hroom hspace hpop, rfl, ?_, fun a ha => ?_⟩⟩
  · simp [Memory.read_write, formatByte, formatTag, formatVersion]
  · exact (Memory.read_write _ _ _ _).trans (if_neg (by rw [List.length_singleton]; omega))

/-! ## The records of a block -/

/-- The greatest multiple of 16 records within 8192 bytes (R177). -/
theorem blockBytes_div_bounds {vs : Nat} (hpos : 0 < vs) (hmax : vs ≤ 256) :
    2 ≤ blockBytes / vs / groupSize ∧ blockBytes / vs / groupSize * groupSize * vs ≤ 8192 ∧
      8192 < (blockBytes / vs / groupSize * groupSize + 16) * vs := by
  rw [Nat.div_div_eq_div_mul]
  have hgroup : 0 < vs * groupSize := Nat.mul_pos hpos (by decide)
  have hle := Nat.div_mul_le_self blockBytes (vs * groupSize)
  have hlt := Nat.lt_div_mul_add (a := blockBytes) hgroup
  refine ⟨(Nat.le_div_iff_mul_le hgroup).mpr ?_, ?_, ?_⟩
  · simp only [groupSize, blockBytes]
    omega
  · rwa [Nat.mul_assoc, Nat.mul_comm groupSize]
  · rwa [Nat.add_mul, Nat.mul_assoc, Nat.mul_comm groupSize, Nat.mul_comm 16]

/-- Settles O52: the least of 256 and of the greatest multiple of 16 records within 8192 bytes. -/
theorem blockVerticesRule : Obligations.BlockVerticesRule := by
  refine ⟨fun vs hlegal => ?_, rfl, rfl, rfl, rfl⟩
  obtain ⟨k, hpos, hmax, rfl⟩ := legalRecordSize_iff.mp hlegal
  obtain ⟨htwo, hle, hlt⟩ := blockBytes_div_bounds (vs := 4 * k) (by omega) (by omega)
  rw [blockVertices]
  generalize blockBytes / (4 * k) / groupSize = q at htwo hle hlt
  simp only [blockMax, groupSize] at hle hlt ⊢
  rcases Nat.le_total 256 (q * 16) with h | h
  · have hmin := Nat.mul_le_mul_right (4 * k) h
    rw [Nat.min_eq_left h]
    omega
  · rw [Nat.min_eq_right h]
    exact ⟨by omega, Nat.mul_mod_left q 16, h, hle, fun _ => hlt⟩

/-! ## The least capacity of a stream -/

/-- The bytes of blocks, whatever the capacity, the predictor carried from block to block (R178, R181). -/
def blocksBytes (vs : Nat) : List (List (List Byte)) → List Byte → List Byte
  | [], _ => []
  | blk :: rest, lv => channelsBytes blk lv (List.range vs) ++ blocksBytes vs rest (newPredictor blk vs lv)

/-- The headroom behind the bytes of a channel is enough for it (R143). -/
theorem channelNeed_le_of_headroom {buf : List Byte} {cap : Nat} (h : (channelBytes buf).length + decodeLimit ≤ cap) :
    channelNeed buf ≤ cap := by
  refine channelNeed_le_iff.mpr fun k _ => le_trans (Nat.add_le_add_right ?_ _) h
  rw [channelBytes_length]
  exact Nat.add_le_add_left (((List.take_sublist _ _).map selectedSize).sum_le_sum fun _ _ => Nat.zero_le _) _

/-- The headroom behind the bytes of the channels is enough for them (R153). -/
theorem channelLoop_of_headroom {recs : List (List Byte)} {lv : List Byte} {cap : Nat} :
    ∀ {ks : List Nat} {out : List Byte}, out.length + (channelsBytes recs lv ks).length + decodeLimit ≤ cap →
      channelLoop recs lv cap ks out = some (out ++ channelsBytes recs lv ks)
  | [], out, _ => by rw [channelLoop, channelsBytes, List.flatMap_nil, List.append_nil]
  | k :: ks, out, h => by
    rw [channelsBytes_cons, List.length_append] at h
    have hneed : channelNeed (channelDeltas recs k (lv.getD k 0)) ≤ cap - out.length :=
      channelNeed_le_of_headroom (by omega)
    have hheader := (channelBytes_length_bounds (channelDeltas recs k (lv.getD k 0))).1
    have hchannel := encodeGroups_eq_some_iff.mpr ⟨⟨by omega, channelNeed_le_iff.mp hneed⟩, rfl⟩
    simp only [channelLoop, hchannel]
    rw [channelLoop_of_headroom (by rw [List.length_append]; omega), channelsBytes_cons, List.append_assoc]

/-- The headroom behind the bytes of the blocks is enough for them (R178). -/
theorem blockLoop_of_headroom {vs cap : Nat} :
    ∀ {blks : List (List (List Byte))} {lv out : List Byte},
      out.length + (blocksBytes vs blks lv).length + decodeLimit ≤ cap →
        blockLoop vs cap blks lv out = some (out ++ blocksBytes vs blks lv)
  | [], _, out, _ => by rw [blockLoop, blocksBytes, List.append_nil]
  | blk :: rest, lv, out, h => by
    rw [blocksBytes, List.length_append] at h
    rw [blockLoop_cons, channelLoop_of_headroom (by rw [List.length_nil]; omega), Option.bind_some, List.nil_append,
      blockLoop_of_headroom (by rw [List.length_append]; omega), blocksBytes, List.append_assoc]

/-- Blocks that succeed have appended their bytes (R178). -/
theorem blockLoop_eq_append {vs cap : Nat} :
    ∀ {blks : List (List (List Byte))} {lv out r : List Byte}, blockLoop vs cap blks lv out = some r →
      r = out ++ blocksBytes vs blks lv
  | [], lv, out, r, h => by
    cases h
    exact (List.append_nil out).symm
  | blk :: rest, lv, out, r, h => by
    rw [blockLoop_cons, Option.bind_eq_some_iff] at h
    obtain ⟨b, hb, hrest⟩ := h
    rw [blockLoop_eq_append hrest, channelLoop_eq_append hb, blocksBytes, List.nil_append, List.append_assoc]

/-- The bytes of a stream, whatever the capacity (R176, R178, R179). -/
def streamBytes (recs : List (List Byte)) (vs : Nat) : List Byte :=
  [formatByte] ++ blocksBytes vs (blocksOf recs vs) (recs.headD []) ++ tailBytes vs (recs.headD [])

theorem headD_length {recs : List (List Byte)} {vs : Nat} (hne : recs ≠ []) (hrecs : ∀ r ∈ recs, r.length = vs) :
    (recs.headD []).length = vs := by
  obtain ⟨r, rest, rfl⟩ := List.exists_cons_of_ne_nil hne
  exact hrecs r List.mem_cons_self

theorem streamBytes_length {recs : List (List Byte)} {vs : Nat} (hne : recs ≠ []) (hrecs : ∀ r ∈ recs, r.length = vs) :
    (streamBytes recs vs).length =
      1 + (blocksBytes vs (blocksOf recs vs) (recs.headD [])).length + tailSize vs := by
  rw [streamBytes, List.length_append, List.length_append, List.length_singleton,
    tailBytes_length (headD_length hne hrecs)]

/-- A stream call succeeds exactly from the length of the stream on, since the tail is longer than the headroom of a group
(R139, R179, R182). -/
theorem encodeStream_eq {recs : List (List Byte)} {vs : Nat} (hne : recs ≠ []) (hrecs : ∀ r ∈ recs, r.length = vs)
    (cap : Nat) :
    encodeStream recs vs cap = if cap < (streamBytes recs vs).length then none else some (streamBytes recs vs) := by
  have hrecord : vs ≤ tailSize vs := Nat.le_max_left _ _
  have htail : 32 ≤ tailSize vs := Nat.le_max_right _ _
  have hheadroom : decodeLimit = 24 := rfl
  rw [streamBytes_length hne hrecs, encodeStream]
  split_ifs with hfirst hcap hcap
  · rfl
  · omega
  · cases hblocks : blockLoop vs cap (blocksOf recs vs) (recs.headD []) [formatByte] with
    | none => rfl
    | some out =>
      have hlength := congrArg List.length (blockLoop_eq_append hblocks)
      rw [List.length_append, List.length_singleton] at hlength
      exact if_pos (by omega)
  · rw [blockLoop_of_headroom (by rw [List.length_singleton]; omega)]
    refine if_neg ?_
    rw [List.length_append, List.length_singleton]
    omega

/-- Settles O53: `L` is the number of the stream's bytes. -/
theorem streamMonotonicCapacity : Obligations.StreamMonotonicCapacity := fun recs vs _ hne hrecs =>
  ⟨streamBytes recs vs, fun cap hcap => by rw [encodeStream_eq hne hrecs, if_pos hcap],
    fun cap hcap => by rw [encodeStream_eq hne hrecs, if_neg (Nat.not_lt.mpr hcap)]⟩

end Sys2Proof.Machine

/-! Lemmas and obligations: the host's stream procedure on the block, from the call to its end (R186, R187). -/

namespace Sys2Proof.Machine

/-! ## Steps along a script -/

/-- Any number of steps of the machine, each of which answers a next state. -/
abbrev Steps : State → State → Prop := Relation.ReflTransGen fun s t => step s = .next t

theorem run_succ_of_step {s t : State} (h : step s = .next t) (k : Nat) : run (k + 1) s = run k t := by
  have hcore : core.step s = .next t := h
  simp only [run, Host.Core.run, hcore]
  rfl

theorem exists_run_of_steps {s t : State} (h : Steps s t) : ∃ k, run k s = .next t := by
  induction h using Relation.ReflTransGen.head_induction_on with
  | refl => exact ⟨0, rfl⟩
  | head hstep _ ih =>
    obtain ⟨k, hk⟩ := ih
    exact ⟨k + 1, (run_succ_of_step hstep k).trans hk⟩

/-- No step writes the parameters (R8, R64). -/
theorem cfg_of_steps {s t : State} (h : Steps s t) : t.cfg = s.cfg := by
  induction h with
  | refl => rfl
  | tail _ hstep ih => exact (stepKeepsParameters _ _ hstep).trans ih

/-- The head of the script is a step (R74). -/
theorem steps_of_perform {s t : State} {a : HostAction} {rest : List HostAction} (hs : s.script = a :: rest)
    (h : perform a { s with script := rest } = .next t) : Steps s t :=
  .single ((step_of_script hs).trans h)

section WritableBlock

variable {s : State} {v : Word} {rest : List HostAction} (hrst : s.rst = false) (hidle : s.inFlight = none)

include hrst hidle

theorem steps_vsize (hs : s.script = .wr offVsize v :: rest) : Steps s { s.writeVsize v with script := rest } :=
  steps_of_perform hs (writeRegister_vsize (s := { s with script := rest }) hrst hidle v)

theorem steps_vcount (hs : s.script = .wr offVcount v :: rest) :
    Steps s { s with vcount := v.extractLsb' 0 9, script := rest } :=
  steps_of_perform hs (writeRegister_vcount (s := { s with script := rest }) hrst hidle v)

theorem steps_src (hs : s.script = .wr offSrc v :: rest) :
    Steps s { s with src := addrBits s.cfg v.toNat, script := rest } :=
  steps_of_perform hs (writeRegister_src (s := { s with script := rest }) hrst hidle v)

theorem steps_dst (hs : s.script = .wr offDst v :: rest) :
    Steps s { s with dst := addrBits s.cfg v.toNat, script := rest } :=
  steps_of_perform hs (writeRegister_dst (s := { s with script := rest }) hrst hidle v)

theorem steps_dend (hs : s.script = .wr offDend v :: rest) :
    Steps s { s with dend := addrBits s.cfg v.toNat, script := rest } :=
  steps_of_perform hs (writeRegister_dend (s := { s with script := rest }) hrst hidle v)

/-- `SETUP` on a block that takes register writes (R75). -/
theorem steps_setup {vs src dst dend : Word} (hs : s.script = pseudoSetup vs src dst dend ++ rest) :
    Steps s { s with
      vsize := vs.extractLsb' 0 9
      lvvalid := false
      src := addrBits s.cfg src.toNat
      dst := addrBits s.cfg dst.toNat
      dend := addrBits s.cfg dend.toNat
      script := rest } :=
  (((steps_vsize hrst hidle hs).trans (steps_src hrst hidle rfl)).trans (steps_dst hrst hidle rfl)).trans
    (steps_dend hrst hidle rfl)

end WritableBlock

theorem perform_cmd {i : Instr} (hi : isCommand i = true) (s : State) : perform (cmd i) s = exec i s :=
  writeCommand_of_decoded (decodeCommand_commandWord hi) s

theorem hostWait_of_done {s : State} (hidle : s.inFlight = none) (hdone : s.done = true) :
    hostWait s = .next (regRead offStatus s) := by
  simp only [hostWait, hidle, hdone, if_true]

/-- A command and the wait for its end (R74, R165). -/
theorem steps_command {s t : State} {i : Instr} {rest : List HostAction} (hi : isCommand i = true)
    (hs : s.script = cmd i :: .wait :: rest) (h : exec i { s with script := .wait :: rest } = .next t)
    (hidle : t.inFlight = none) (hdone : t.done = true) (hscript : t.script = .wait :: rest) :
    Steps s (regRead offStatus { t with script := rest }) :=
  (steps_of_perform hs ((perform_cmd hi _).trans h)).trans <|
    steps_of_perform hscript (hostWait_of_done (s := { t with script := rest }) hidle hdone)

/-! ## The tests of `STATUS` -/

theorem expectNoErr_of_ok {s : State} (herr : s.err = false) : expectNoErr s = .next (regRead offStatus s) := by
  simp [expectNoErr, herr]

theorem expectNoErr_of_err {s : State} (herr : s.err = true) :
    expectNoErr s = .next { regRead offStatus s with
      callResult := .programmingError
      script := abandonCall s.script } := by
  simp [expectNoErr, herr]

theorem checkStatus_of_not_fail {s : State} (hfail : s.fail = false) : checkStatus s = expectNoErr s := by
  simp [checkStatus, hfail]

theorem checkStatus_of_fail {s : State} (hfail : s.fail = true) :
    checkStatus s = .next { regRead offStatus s with script := [cmd .clr, .wait, .giveBack 0] ++ s.script } := by
  simp [checkStatus, hfail]

/-! ## The end of a call -/

/-- From `s` the host comes to the end of its call, with the actions `rest` left and the result `r` (R175, R191). -/
def CallEnds (s : State) (rest : List HostAction) (r : StreamResult) : Prop :=
  ∃ t, Steps s t ∧ t.script = rest ∧ t.callResult = r

theorem CallEnds.of_steps {s t : State} {rest : List HostAction} {r : StreamResult} (hst : Steps s t)
    (h : CallEnds t rest r) : CallEnds s rest r := by
  obtain ⟨u, htu, hu⟩ := h
  exact ⟨u, hst.trans htu, hu⟩

/-- A call that ends early leaves the actions after its own. -/
theorem abandonCall_append {l rest : List HostAction} (h : ∀ a ∈ l, a ≠ .finishStream) :
    abandonCall (l ++ .finishStream :: rest) = rest := by
  rw [abandonCall, List.dropWhile_append_of_pos fun a ha => bne_iff_ne.mpr (h a ha)]
  simp

theorem ne_finishStream_of_mem_blocks {c : StreamCall} {js : List Nat} {a : HostAction}
    (h : a ∈ js.flatMap (blockActions c)) : a ≠ .finishStream := by
  rintro rfl
  simp [blockActions, cmd] at h

/-- After a Fail the host clears it and returns 0 (R186). -/
theorem callEnds_of_fail {s : State} {rest : List HostAction} (hrst : s.rst = false) (hidle : s.inFlight = none)
    (hfail : s.fail = true) (hs : s.script = .checkBlock :: rest) : CallEnds s (abandonCall rest) (.returned 0) := by
  obtain ⟨hclr, -, -⟩ := clrClearsFailure
  have hcheck := steps_of_perform hs (checkStatus_of_fail hfail)
  have hclear := hcheck.trans (steps_command (i := .clr) rfl rfl (hclr _ hrst hidle) hidle rfl rfl)
  exact ⟨_, hclear.trans (steps_of_perform rfl rfl), rfl, rfl⟩

/-- After an Err the call is a programming error (R186, R191). -/
theorem callEnds_of_err {s : State} {rest : List HostAction} (hfail : s.fail = false) (herr : s.err = true)
    (hs : s.script = .checkBlock :: rest) : CallEnds s (abandonCall rest) .programmingError :=
  ⟨_, steps_of_perform hs ((checkStatus_of_not_fail (s := { s with script := rest }) hfail).trans
    (expectNoErr_of_err herr)), rfl, rfl⟩

end Sys2Proof.Machine

/-! Lemmas and obligations: the records and the destination of a stream call, and what the host and the block hold between
two blocks of its procedure (R178, R186). -/

namespace Sys2Proof.Machine

/-! ## Bytes read -/

theorem Memory.readBytes_congr {m m' : Memory} {a n : Nat} (h : ∀ j < n, m.read (a + j) = m'.read (a + j)) :
    m.readBytes a n = m'.readBytes a n :=
  List.map_congr_left fun j hj => h j (List.mem_range.mp hj)

theorem Memory.readBytes_add (m : Memory) (a n k : Nat) :
    m.readBytes a (n + k) = m.readBytes a n ++ m.readBytes (a + n) k := by
  simp [Memory.readBytes, List.range_add, Nat.add_assoc]

theorem Memory.readBytes_eq_of_getD {m : Memory} {a : Nat} {v : List Byte}
    (h : ∀ j < v.length, m.read (a + j) = v.getD j 0) : m.readBytes a v.length = v :=
  (List.map_congr_left fun j hj => h j (List.mem_range.mp hj)).trans (map_getD_range v)

/-- Bytes stored behind others, which are kept (R59). -/
theorem Memory.readBytes_append {m m' : Memory} {a : Nat} {out b : List Byte} (hbefore : m.readBytes a out.length = out)
    (hkept : ∀ j < out.length, m'.read (a + j) = m.read (a + j))
    (hnew : ∀ j < b.length, m'.read (a + out.length + j) = b.getD j 0) :
    m'.readBytes a (out ++ b).length = out ++ b := by
  rw [List.length_append, Memory.readBytes_add, Memory.readBytes_congr hkept, hbefore, Memory.readBytes_eq_of_getD hnew]

/-- A store behind other bytes (R54). -/
theorem Memory.readBytes_write_append {m : Memory} {a : Nat} {out : List Byte} (hbefore : m.readBytes a out.length = out)
    (b : List Byte) : (m.write (a + out.length) b).readBytes a (out ++ b).length = out ++ b := by
  refine Memory.readBytes_append hbefore (fun j hj => ?_) fun j hj => ?_
  · rw [Memory.read_write, if_neg (by omega)]
  · rw [Memory.read_write, if_pos ⟨by omega, by omega⟩, Nat.add_sub_cancel_left]

/-! ## Numbers as register words -/

theorem addrBits_wordNat {cfg : Config} (h : cfg.aw ≤ 32) (n : Nat) :
    (addrBits cfg (wordNat n).toNat).toNat = n % 2 ^ cfg.aw := by
  rw [addrBits_toNat h, wordNat, BitVec.toNat_ofNat, Nat.mod_mod_of_dvd _ (Nat.pow_dvd_pow 2 h)]

theorem wordNat_low9 {n : Nat} (h : n ≤ 256) : ((wordNat n).extractLsb' 0 9).toNat = n := by
  rw [BitVec.extractLsb'_toNat, Nat.shiftRight_zero, wordNat, BitVec.toNat_ofNat]
  omega

/-! ## The records of a call -/

/-- The record array of a call, in the memory `m` (R175). -/
def callRecords (m : Memory) (c : StreamCall) : List (List Byte) :=
  (List.range c.count).map fun i => m.readBytes (c.src + i * c.vs) c.vs

/-- The records of block `j` of a call (R178). -/
def callBlock (m : Memory) (c : StreamCall) (j : Nat) : List (List Byte) :=
  ((callRecords m c).drop (j * blockVertices c.vs)).take (blockLength c.vs c.count j)

@[simp] theorem callRecords_length (m : Memory) (c : StreamCall) : (callRecords m c).length = c.count := by
  simp [callRecords]

theorem callRecords_headD (m : Memory) {c : StreamCall} (h : 1 ≤ c.count) :
    (callRecords m c).headD [] = m.readBytes c.src c.vs := by
  obtain ⟨n, hn⟩ := Nat.exists_eq_add_of_le' h
  simp [callRecords, hn, List.range_succ_eq_map]

theorem blocksOf_callRecords (m : Memory) (c : StreamCall) :
    blocksOf (callRecords m c) c.vs = (List.range (blockCount c.vs c.count)).map (callBlock m c) := by
  rw [blocksOf, callRecords_length]
  rfl

/-- Block `j` of a call has from 1 to 256 records, all of them records of the call (R177, R178). -/
theorem blockLength_bounds {vs count j : Nat} (hlegal : legalRecordSize vs = true) (hj : j < blockCount vs count) :
    1 ≤ blockLength vs count j ∧ blockLength vs count j ≤ 256 ∧
      j * blockVertices vs + blockLength vs count j ≤ count := by
  obtain ⟨hrule, -⟩ := blockVerticesRule
  obtain ⟨hpos, -, hmax, -, -⟩ := hrule vs hlegal
  have hstart := (Nat.le_div_iff_mul_le hpos).mp (show j + 1 ≤ _ from hj)
  rw [Nat.succ_mul] at hstart
  rw [blockLength, Nat.succ_mul]
  omega

theorem blockCount_pos {vs count : Nat} (hlegal : legalRecordSize vs = true) (hcount : 1 ≤ count) :
    0 < blockCount vs count := by
  obtain ⟨hrule, -⟩ := blockVerticesRule
  obtain ⟨hpos, -⟩ := hrule vs hlegal
  exact Nat.div_pos (by omega) hpos

/-- The records of a block stand one after another from the first one's address (R150, R178). -/
theorem callBlock_eq_map (m : Memory) {c : StreamCall} {j : Nat}
    (h : j * blockVertices c.vs + blockLength c.vs c.count j ≤ c.count) :
    callBlock m c j = (List.range (blockLength c.vs c.count j)).map fun i =>
      m.readBytes (c.src + j * blockVertices c.vs * c.vs + i * c.vs) c.vs := by
  refine List.ext_getElem ?_ fun i hi hi' => ?_
  · simp only [callBlock, List.length_take, List.length_drop, callRecords_length, List.length_map, List.length_range]
    omega
  · simp [callBlock, callRecords, Nat.add_mul, Nat.add_assoc]

/-- A call whose record size is legal and whose record array and destination lie in the populated memory, apart from each
other (R175, R185, R186). -/
structure StreamCall.Placed (c : StreamCall) (cfg : Config) : Prop where
  legal : legalRecordSize c.vs = true
  count : 1 ≤ c.count
  aw : cfg.aw ≤ 32
  outSpace : c.out + c.cap ≤ 2 ^ cfg.aw
  srcSpace : c.src + c.count * c.vs ≤ 2 ^ cfg.aw
  apart : c.out + c.cap ≤ c.src ∨ c.src + c.count * c.vs ≤ c.out
  outPopulated : covers cfg c.out (c.out + c.cap) = true
  srcPopulated : covers cfg c.src (c.src + c.count * c.vs) = true

theorem StreamCall.Placed.vs_bounds {c : StreamCall} {cfg : Config} (h : c.Placed cfg) : 0 < c.vs ∧ c.vs ≤ 256 := by
  obtain ⟨k, hpos, hmax, hvs⟩ := legalRecordSize_iff.mp h.legal
  omega

/-- The first record lies in the record array. -/
theorem StreamCall.Placed.vs_le {c : StreamCall} {cfg : Config} (h : c.Placed cfg) : c.vs ≤ c.count * c.vs :=
  Nat.le_mul_of_pos_left _ h.count

/-- In a memory that keeps the record array, the bytes at its address are the first record. -/
theorem StreamCall.Placed.readBytes_src {c : StreamCall} {cfg : Config} (h : c.Placed cfg) {m m' : Memory}
    (hsource : ∀ a, c.src ≤ a → a < c.src + c.count * c.vs → m'.read a = m.read a) :
    m'.readBytes c.src c.vs = (callRecords m c).headD [] := by
  have hrecord := h.vs_le
  rw [callRecords_headD _ h.count]
  exact Memory.readBytes_congr fun k hk => hsource _ (by omega) (by omega)

/-- A block's records lie in the record array. -/
theorem StreamCall.Placed.block_le {c : StreamCall} {cfg : Config} (h : c.Placed cfg) {j : Nat}
    (hj : j < blockCount c.vs c.count) :
    j * blockVertices c.vs * c.vs + blockLength c.vs c.count j * c.vs ≤ c.count * c.vs := by
  obtain ⟨-, -, hle⟩ := blockLength_bounds h.legal hj
  rw [← Nat.add_mul]
  exact Nat.mul_le_mul_right _ hle

/-! ## Between two blocks -/

/-- The stream procedure of the call `c` on the memory `m` has written the bytes `out`, and the block is ready for the next
records with the predictor `lv` (R181, R186). -/
structure Streaming (m : Memory) (c : StreamCall) (lv out : List Byte) (t : State) : Prop where
  placed : c.Placed t.cfg
  ready : t.ready
  call : t.call = c
  vsize : t.vsize.toNat = c.vs
  lvvalid : t.lvvalid = true
  predictor : samePredictor c.vs (ByteFile.bytes t.lv 256) lv
  fits : out.length ≤ c.cap
  dst : t.dst.toNat = c.out + out.length
  dend : t.dend.toNat = (c.out + c.cap) % 2 ^ t.cfg.aw
  source : ∀ a, c.src ≤ a → a < c.src + c.count * c.vs → t.mem.read a = m.read a
  written : t.mem.readBytes c.out out.length = out

/-- What the host reads, and what is left of its script, is not the block's. -/
theorem Streaming.withHost {m : Memory} {c : StreamCall} {lv out : List Byte} {t u : State} (h : Streaming m c lv out t)
    (hcall : u.call = c) : Streaming m c lv out (t.withHost u) :=
  { h with call := hcall }

/-- A record in a file is a predictor with the record's bytes (R155, R157). -/
theorem samePredictor_of_fileHolds {f before : ByteFile} {v : List Byte} {vs : Nat} (hf : fileHolds f before v)
    (hlength : v.length = vs) : samePredictor vs (ByteFile.bytes f 256) v := fun k hk => by
  rw [ByteFile.bytes_getD, hf k, if_pos (hk.trans_eq hlength.symm)]

/-- The state in which the block takes ENCB for block `j` of the call (R186). -/
def blockStart (c : StreamCall) (j : Nat) (rest : List HostAction) (t : State) : State :=
  { t with
    src := addrBits t.cfg (wordNat (c.src + j * blockVertices c.vs * c.vs)).toNat
    vcount := (wordNat (blockLength c.vs c.count j)).extractLsb' 0 9
    script := .wait :: .checkBlock :: rest }

/-- The host's actions on a block up to the test of `STATUS` (R186). -/
theorem steps_blockStart {c : StreamCall} {j : Nat} {rest : List HostAction} {t v : State} (hrst : t.rst = false)
    (hidle : t.inFlight = none) (hs : t.script = blockActions c j ++ rest)
    (h : exec .encb (blockStart c j rest t) = .next v) (hvidle : v.inFlight = none) (hdone : v.done = true)
    (hscript : v.script = .wait :: .checkBlock :: rest) :
    Steps t (regRead offStatus { v with script := .checkBlock :: rest }) :=
  ((steps_src hrst hidle hs).trans (steps_vcount hrst hidle rfl)).trans
    (steps_command (i := .encb) rfl rfl h hvidle hdone hscript)

section Block

variable {m : Memory} {c : StreamCall} {lv out : List Byte} {t : State} {j : Nat} (h : Streaming m c lv out t)
  (rest : List HostAction)

include h

theorem Streaming.blockStart_vsize : (blockStart c j rest t).vsize.toNat = c.vs := h.vsize

theorem Streaming.blockStart_vsizeLegal : (blockStart c j rest t).vsizeLegal = true :=
  (congrArg legalRecordSize h.vsize).trans h.placed.legal

theorem Streaming.blockStart_dst : (blockStart c j rest t).dst.toNat = c.out + out.length := h.dst

/-- For a destination whose end is an address, the window ends there (R31). -/
theorem Streaming.blockStart_dend (hend : c.out + c.cap < 2 ^ t.cfg.aw) :
    (blockStart c j rest t).dend.toNat = c.out + c.cap := h.dend.trans (Nat.mod_eq_of_lt hend)

/-- A command that changes no byte outside the window keeps the bytes so far and those behind the destination (R42). -/
theorem Streaming.read_of_keepsOutsideWindow (hend : c.out + c.cap < 2 ^ t.cfg.aw) {v : State}
    (hkept : keepsOutsideWindow (blockStart c j rest t) v) {a : Nat} (ha : a < c.out + out.length ∨ c.out + c.cap ≤ a) :
    v.mem.read a = t.mem.read a := by
  refine hkept a fun ⟨hdst, hdend⟩ => ?_
  rw [h.blockStart_dst] at hdst
  rw [h.blockStart_dend rest hend] at hdend
  omega

variable (hj : j < blockCount c.vs c.count)

include hj

theorem Streaming.blockStart_src :
    (blockStart c j rest t).src.toNat = c.src + j * blockVertices c.vs * c.vs := by
  have hle := h.placed.block_le hj
  obtain ⟨hpos, -, -⟩ := blockLength_bounds h.placed.legal hj
  have hrecord := Nat.le_mul_of_pos_left c.vs hpos
  have hvs := h.placed.vs_bounds
  have hspace := h.placed.srcSpace
  exact (addrBits_wordNat h.placed.aw _).trans (Nat.mod_eq_of_lt (by omega))

theorem Streaming.blockStart_vcount : (blockStart c j rest t).vcount.toNat = blockLength c.vs c.count j := by
  obtain ⟨-, hmax, -⟩ := blockLength_bounds h.placed.legal hj
  exact wordNat_low9 hmax

theorem Streaming.blockStart_vcountLegal : (blockStart c j rest t).vcountLegal = true := by
  obtain ⟨hmin, hmax, -⟩ := blockLength_bounds h.placed.legal hj
  rw [State.vcountLegal, h.blockStart_vcount rest hj]
  simp [hmin, hmax, blockMax]

/-- The block reads the records of block `j` (R158, R178). -/
theorem Streaming.blockStart_records : (blockStart c j rest t).records = callBlock m c j := by
  obtain ⟨-, -, hblock⟩ := blockLength_bounds h.placed.legal hj
  have hle := h.placed.block_le hj
  rw [callBlock_eq_map m hblock, State.records, h.blockStart_vcount rest hj, h.blockStart_src rest hj, h.blockStart_vsize]
  refine List.map_congr_left fun i hi => Memory.readBytes_congr fun k hk => h.source _ (by omega) ?_
  have hi := Nat.mul_le_mul_right c.vs (Nat.succ_le_of_lt (List.mem_range.mp hi))
  rw [Nat.succ_mul] at hi
  omega

/-- For a destination whose end is an address, the block finds its operands in order (R31, R65, R66). -/
theorem Streaming.blockStart_placed (hend : c.out + c.cap < 2 ^ t.cfg.aw) :
    (blockStart c j rest t).placed
      ((blockStart c j rest t).vcount.toNat * (blockStart c j rest t).vsize.toNat) := by
  have hle := h.placed.block_le hj
  have hspace : c.src + c.count * c.vs ≤ 2 ^ (blockStart c j rest t).cfg.aw := h.placed.srcSpace
  have hapart := h.placed.apart
  have hfits := h.fits
  rw [State.placed, h.blockStart_src rest hj, h.blockStart_vcount rest hj, h.blockStart_vsize, h.blockStart_dst,
    h.blockStart_dend rest hend]
  exact ⟨h.placed.aw, hend, by omega, by omega, by omega, covers_mono h.placed.srcPopulated (by omega) (by omega),
    covers_mono h.placed.outPopulated (by omega) (by omega)⟩

/-- The block encodes on the capacity that is left and with the predictor so far (R158, R181). -/
theorem Streaming.blockStart_encodeBlock (hend : c.out + c.cap < 2 ^ t.cfg.aw) :
    encodeBlock (blockStart c j rest t).records (blockStart c j rest t).vsize.toNat
        (ByteFile.bytes (blockStart c j rest t).lv 256)
        ((blockStart c j rest t).dend.toNat - (blockStart c j rest t).dst.toNat) =
      (channelLoop (callBlock m c j) lv (c.cap - out.length) (List.range c.vs) []).map fun b =>
        (b, newPredictor (callBlock m c j) c.vs (ByteFile.bytes t.lv 256)) := by
  rw [h.blockStart_records rest hj, h.blockStart_vsize, h.blockStart_dst, h.blockStart_dend rest hend,
    Nat.add_sub_add_left, encodeBlock_eq_map, ← channelLoop_congr _ fun k hk => h.predictor k (List.mem_range.mp hk)]
  rfl

/-- The last record of the block is the predictor for the next (R155, R158). -/
theorem Streaming.samePredictor_of_lastRecord {f before : ByteFile}
    (hf : fileHolds f before ((blockStart c j rest t).mem.readBytes ((blockStart c j rest t).src.toNat +
      ((blockStart c j rest t).vcount.toNat - 1) * (blockStart c j rest t).vsize.toNat)
      (blockStart c j rest t).vsize.toNat)) :
    samePredictor c.vs (ByteFile.bytes f 256) (newPredictor (callBlock m c j) c.vs lv) := by
  obtain ⟨hmin, -⟩ := vcount_bounds (h.blockStart_vcountLegal rest hj)
  have hlast := State.records_getLastD hmin
  have hlength := (congrArg List.length hlast).trans ((Memory.readBytes_length _ _ _).trans h.vsize)
  rw [← hlast] at hf
  rw [h.blockStart_records rest hj] at hf hlength
  exact fun k hk => (samePredictor_of_fileHolds hf hlength k hk).trans (newPredictor_getD_of_lt _ lv hk).symm

/-- A block that fits: its bytes stand behind those so far, and the predictor is its last record (R155, R158). -/
theorem Streaming.exec_encb_of_some (hend : c.out + c.cap < 2 ^ t.cfg.aw) {b : List Byte}
    (hb : channelLoop (callBlock m c j) lv (c.cap - out.length) (List.range c.vs) [] = some b) :
    ∃ v, exec .encb (blockStart c j rest t) = .next v ∧ v.done = true ∧ v.script = .wait :: .checkBlock :: rest ∧
      Streaming m c (newPredictor (callBlock m c j) c.vs lv) (out ++ b) v := by
  have hplaced := h.blockStart_placed rest hj hend
  have hblock := h.blockStart_encodeBlock rest hj hend
  rw [hb, Option.map_some] at hblock
  obtain ⟨v, hexec, hv, hlv, -, hout, hkept⟩ := encbEncodesBlock (blockStart c j rest t) _ _ h.ready
    (h.blockStart_vsizeLegal rest) (h.blockStart_vcountLegal rest hj) h.lvvalid hplaced hblock
  have hblen : b.length ≤ c.cap - out.length := channelLoop_length_le (Nat.zero_le _) hb
  have hfits := h.fits
  have hapart := h.placed.apart
  have hcfg : v.cfg = t.cfg := (congrArg State.cfg hv).trans rfl
  have hmem := fun a => h.read_of_keepsOutsideWindow rest hend hkept (a := a)
  exact ⟨v, hexec, congrArg State.done hv, congrArg State.script hv, {
    placed := hcfg ▸ h.placed
    ready := by
      rw [hv]
      exact h.ready
    call := (congrArg State.call hv).trans h.call
    vsize := (congrArg (·.vsize.toNat) hv).trans h.vsize
    lvvalid := (congrArg State.lvvalid hv).trans h.lvvalid
    predictor := h.samePredictor_of_lastRecord rest hj hlv
    fits := by
      rw [List.length_append]
      omega
    dst := by
      refine (congrArg (·.dst.toNat) hv).trans ?_
      have haw := Nat.pow_le_pow_right (n := 2) (by decide) h.placed.aw
      rw [BitVec.toNat_ofNat, h.blockStart_dst, List.length_append]
      omega
    dend := by
      rw [hcfg, ← h.dend]
      exact congrArg (·.dend.toNat) hv
    source := fun a hmin hmax => (hmem a (by omega)).trans (h.source a hmin hmax)
    written := Memory.readBytes_append h.written (fun k hk => hmem _ (by omega)) fun k hk =>
      (congrArg (fun n => v.mem.read (n + k)) (h.blockStart_dst rest)).symm.trans (hout k hk) }⟩

/-- A block that fits: the host goes on behind its bytes (R186). -/
theorem Streaming.steps_block (hend : c.out + c.cap < 2 ^ t.cfg.aw) {b : List Byte}
    (hb : channelLoop (callBlock m c j) lv (c.cap - out.length) (List.range c.vs) [] = some b)
    (hs : t.script = blockActions c j ++ rest) :
    ∃ u, Steps t u ∧ u.script = rest ∧ Streaming m c (newPredictor (callBlock m c j) c.vs lv) (out ++ b) u := by
  obtain ⟨hrst, hidle, -, -⟩ := h.ready
  obtain ⟨v, hexec, hdone, hscript, hv⟩ := h.exec_encb_of_some rest hj hend hb
  obtain ⟨-, hvidle, hvfail, hverr⟩ := hv.ready
  have hblock := steps_blockStart hrst hidle hs hexec hvidle hdone hscript
  have hcheck := hblock.trans (steps_of_perform rfl
    ((checkStatus_of_not_fail (s := { regRead offStatus v with script := rest }) hvfail).trans (expectNoErr_of_ok hverr)))
  exact ⟨_, hcheck, rfl, hv.withHost (u := regRead offStatus { regRead offStatus v with script := rest }) hv.call⟩

/-- A block that does not fit ends the call with 0 (R154, R186). -/
theorem Streaming.callEnds_of_noRoom (hend : c.out + c.cap < 2 ^ t.cfg.aw)
    (hb : channelLoop (callBlock m c j) lv (c.cap - out.length) (List.range c.vs) [] = none)
    (hs : t.script = blockActions c j ++ rest) : CallEnds t (abandonCall rest) (.returned 0) := by
  obtain ⟨hrst, hidle, hfail, herr⟩ := h.ready
  have hblock := h.blockStart_encodeBlock rest hj hend
  rw [hb, Option.map_none] at hblock
  obtain ⟨v, hexec, hv, -⟩ := encbWithoutRoomFails (blockStart c j rest t) h.ready
    (h.blockStart_vsizeLegal rest) (h.blockStart_vcountLegal rest hj) h.lvvalid (h.blockStart_placed rest hj hend) hblock
  have hvidle : v.inFlight = none := (congrArg State.inFlight hv).trans hidle
  have hvrst : v.rst = false := (congrArg State.rst hv).trans hrst
  refine .of_steps (steps_blockStart hrst hidle hs hexec hvidle (congrArg State.done hv) (congrArg State.script hv)) ?_
  exact callEnds_of_fail hvrst hvidle (congrArg State.fail hv) rfl

/-- For a destination that ends at the top of the address space `DEND` is 0, and the range check of the block makes the call
a programming error (R31, R65, R186). -/
theorem Streaming.callEnds_of_top (htop : c.out + c.cap = 2 ^ t.cfg.aw) (hout : 0 < out.length)
    (hs : t.script = blockActions c j ++ rest) : CallEnds t (abandonCall rest) .programmingError := by
  obtain ⟨hrst, hidle, hfail, herr⟩ := h.ready
  have hdend : (blockStart c j rest t).dend.toNat = 0 := h.dend.trans (by rw [htop, Nat.mod_self])
  have hrange : rangeFails .encb (blockStart c j rest t) = true := by
    rw [rangeFails_iff rfl, hdend, h.blockStart_dst]
    omega
  have hfirst : firstError .encb (blockStart c j rest t) = some .range := by
    have hvalid : (blockStart c j rest t).lvvalid = true := h.lvvalid
    rw [firstError, h.blockStart_vsizeLegal, h.blockStart_vcountLegal rest hj, hvalid, hrange]
    rfl
  exact .of_steps (steps_blockStart hrst hidle hs (exec_of_error h.ready hfirst) hidle rfl rfl)
    (callEnds_of_err hfail rfl rfl)

end Block

/-- The blocks of a call one after another: the host comes to the actions behind them with the bytes of `encode_stream`, or
the call ends with 0 (R181, R186). -/
theorem Streaming.steps_blocks {m : Memory} {c : StreamCall} {rest : List HostAction} {js : List Nat} {lv out : List Byte}
    {t : State} (h : Streaming m c lv out t) (hjs : ∀ j ∈ js, j < blockCount c.vs c.count)
    (hend : c.out + c.cap < 2 ^ t.cfg.aw) (hs : t.script = js.flatMap (blockActions c) ++ .finishStream :: rest) :
    (blockLoop c.vs c.cap (js.map (callBlock m c)) lv out = none → CallEnds t rest (.returned 0)) ∧
      ∀ r, blockLoop c.vs c.cap (js.map (callBlock m c)) lv out = some r →
        ∃ u lv', Steps t u ∧ u.script = .finishStream :: rest ∧ Streaming m c lv' r u := by
  induction js generalizing t lv out with
  | nil =>
    refine ⟨nofun, ?_⟩
    rintro r ⟨⟩
    exact ⟨t, lv, .refl, hs, h⟩
  | cons j js ih =>
    obtain ⟨hj, hjs⟩ := List.forall_mem_cons.mp hjs
    rw [List.flatMap_cons, List.append_assoc] at hs
    rw [List.map_cons, blockLoop_cons]
    cases hb : channelLoop (callBlock m c j) lv (c.cap - out.length) (List.range c.vs) [] with
    | none =>
      have hends := h.callEnds_of_noRoom _ hj hend hb hs
      rw [abandonCall_append fun _ => ne_finishStream_of_mem_blocks] at hends
      exact ⟨fun _ => hends, nofun⟩
    | some b =>
      obtain ⟨u, htu, hus, hu⟩ := h.steps_block _ hj hend hb hs
      obtain ⟨hnone, hsome⟩ := ih hu hjs (cfg_of_steps htu ▸ hend) hus
      refine ⟨fun hn => .of_steps htu (hnone hn), fun r hr => ?_⟩
      obtain ⟨v, lv', huv, hv⟩ := hsome r hr
      exact ⟨v, lv', htu.trans huv, hv⟩

end Sys2Proof.Machine

/-! Lemmas and obligations: the first and the last actions of the host's stream procedure, and the whole of it (R176, R179,
R186, R187). -/

namespace Sys2Proof.Machine

/-! ## The first actions -/

theorem beginStream_of_legal {c : StreamCall} {s : State} (hlegal : legalRecordSize c.vs = true) (hcount : 1 ≤ c.count) :
    beginStream c s = .next { s with call := c, callResult := .none, script := streamActions c ++ s.script } := by
  simp [beginStream, hlegal, Nat.ne_of_gt hcount]

/-- The actions of a call: its format byte, the set up, SEED and its test, the blocks and the end (R186). -/
theorem streamActions_append (c : StreamCall) (rest : List HostAction) :
    streamActions c ++ rest = .tag formatByte ::
      (pseudoSetup (wordNat c.vs) (wordNat c.src) (wordNat (c.out + 1)) (wordNat (c.out + c.cap)) ++
        (cmd .seed :: .wait :: .checkSeed ::
          ((List.range (blockCount c.vs c.count)).flatMap (blockActions c) ++ .finishStream :: rest))) := by
  simp [streamActions, pseudoSetup]

theorem perform_formatByte (s : State) : perform (.tag formatByte) s = execFormatV1 s :=
  perform_tag_of_decoded (i := .formatV1) (by decide) s

/-- The state in which the host has written the format byte of the call (R176, R186). -/
def tagged (c : StreamCall) (script : List HostAction) (s : State) : State :=
  { s with call := c, callResult := .none, mem := s.mem.write c.out [formatByte], script := script }

/-- The state in which the block takes SEED for the call (R186). -/
def seedStart (c : StreamCall) (script : List HostAction) (s : State) : State :=
  { tagged c script s with
    vsize := (wordNat c.vs).extractLsb' 0 9
    lvvalid := false
    src := addrBits s.cfg (wordNat c.src).toNat
    dst := addrBits s.cfg (wordNat (c.out + 1)).toNat
    dend := addrBits s.cfg (wordNat (c.out + c.cap)).toNat }

section Seed

variable {s : State} {c : StreamCall} (hplaced : c.Placed s.cfg) (hroom : 1 + c.vs ≤ c.cap)

include hplaced hroom

/-- The format byte is stored outside the record array. -/
theorem seedStart_source (script : List HostAction) {a : Nat} (hmin : c.src ≤ a) (hmax : a < c.src + c.count * c.vs) :
    (seedStart c script s).mem.read a = s.mem.read a := by
  have hapart := hplaced.apart
  refine (Memory.read_write _ _ _ _).trans (if_neg ?_)
  rw [List.length_singleton]
  omega

/-- SEED takes the first record for the predictor (R157, R178). -/
theorem exec_seed_seedStart (hready : s.ready) (script : List HostAction) :
    ∃ v, exec .seed (seedStart c script s) = .next v ∧ v.done = true ∧ v.script = script ∧
      Streaming s.mem c ((callRecords s.mem c).headD []) [formatByte] v := by
  obtain ⟨hloads, -⟩ := seedLoadsPredictor
  have hvs := hplaced.vs_bounds
  have hrecord := hplaced.vs_le
  have hspace := hplaced.srcSpace
  have hout := hplaced.outSpace
  have hvsize : (seedStart c script s).vsize.toNat = c.vs := wordNat_low9 hvs.2
  have hsrc : (seedStart c script s).src.toNat = c.src :=
    (addrBits_wordNat hplaced.aw _).trans (Nat.mod_eq_of_lt (by omega))
  have hdst : (seedStart c script s).dst.toNat = c.out + 1 :=
    (addrBits_wordNat hplaced.aw _).trans (Nat.mod_eq_of_lt (by omega))
  obtain ⟨v, hexec, hv, hlv⟩ := hloads (seedStart c script s) hready
    ((congrArg legalRecordSize hvsize).trans hplaced.legal)
    (by rw [hsrc, hvsize]; exact (Nat.add_le_add_left hrecord _).trans hspace)
    (by rw [hsrc, hvsize]; exact covers_mono hplaced.srcPopulated le_rfl (by omega))
  have hfirst := hplaced.readBytes_src fun _ => seedStart_source hplaced hroom script
  rw [hsrc, hvsize, hfirst] at hlv
  have hcfg : v.cfg = s.cfg := (congrArg State.cfg hv).trans rfl
  have hmem : v.mem = (seedStart c script s).mem := (congrArg State.mem hv).trans rfl
  exact ⟨v, hexec, congrArg State.done hv, congrArg State.script hv, {
    placed := hcfg ▸ hplaced
    ready := by
      rw [hv]
      exact hready
    call := congrArg State.call hv
    vsize := (congrArg (·.vsize.toNat) hv).trans hvsize
    lvvalid := congrArg State.lvvalid hv
    predictor := samePredictor_of_fileHolds hlv (by rw [← hfirst, Memory.readBytes_length])
    fits := by
      rw [List.length_singleton]
      omega
    dst := (congrArg (·.dst.toNat) hv).trans hdst
    dend := by
      rw [hcfg]
      exact (congrArg (·.dend.toNat) hv).trans (addrBits_wordNat hplaced.aw _)
    source := fun a hmin hmax => by
      rw [hmem]
      exact seedStart_source hplaced hroom script hmin hmax
    written := by
      rw [hmem]
      exact Memory.readBytes_write s.mem c.out [formatByte] }⟩

end Seed

section Begin

variable {s : State} {c : StreamCall} {rest : List HostAction} (hs : s.script = .encodeStream c :: rest)
  (hplaced : c.Placed s.cfg)

include hs hplaced

/-- The call begins (R175, R186). -/
theorem steps_beginStream :
    Steps s { s with call := c, callResult := .none, script := streamActions c ++ rest } :=
  steps_of_perform hs (beginStream_of_legal (s := { s with script := rest }) hplaced.legal hplaced.count)

/-- A capacity below that of the format byte and a record ends the call with 0 (R176). -/
theorem callEnds_of_short (hshort : c.cap < 1 + c.vs) : CallEnds s rest (.returned 0) := by
  have hbegin := steps_beginStream hs hplaced
  rw [streamActions_append] at hbegin
  refine .of_steps hbegin ⟨_, steps_of_perform rfl ((perform_formatByte _).trans (if_pos hshort)), ?_, rfl⟩
  exact abandonCall_append fun _ => ne_finishStream_of_mem_blocks

variable (hready : s.ready) (hroom : 1 + c.vs ≤ c.cap)

include hready hroom

/-- With room for the format byte and a record the host comes to SEED (R176, R186). -/
theorem steps_seedStart :
    Steps s (seedStart c (cmd .seed :: .wait :: .checkSeed ::
      ((List.range (blockCount c.vs c.count)).flatMap (blockActions c) ++ .finishStream :: rest)) s) := by
  obtain ⟨hrst, hidle, -, -⟩ := hready
  have hspace := hplaced.outSpace
  have hbegin := steps_beginStream hs hplaced
  rw [streamActions_append] at hbegin
  have htag : Steps s (tagged c _ s) := hbegin.trans (steps_of_perform rfl ((perform_formatByte _).trans
    (execFormatV1_of_room hidle hroom (show c.out + 1 ≤ 2 ^ s.cfg.aw by omega)
      (covers_mono hplaced.outPopulated le_rfl (show c.out + 1 ≤ c.out + c.cap by omega)))))
  exact htag.trans (steps_setup (s := tagged c _ s) hrst hidle rfl)

/-- The host comes to the blocks, with the format byte written and the predictor seeded (R176, R178, R186). -/
theorem steps_streaming :
    ∃ t, Steps s t ∧
      t.script = (List.range (blockCount c.vs c.count)).flatMap (blockActions c) ++ .finishStream :: rest ∧
      Streaming s.mem c ((callRecords s.mem c).headD []) [formatByte] t := by
  obtain ⟨v, hexec, hdone, hscript, hv⟩ := exec_seed_seedStart hplaced hroom hready (.wait :: .checkSeed ::
    ((List.range (blockCount c.vs c.count)).flatMap (blockActions c) ++ .finishStream :: rest))
  obtain ⟨-, hvidle, -, hverr⟩ := hv.ready
  have hseed := (steps_seedStart hs hplaced hready hroom).trans
    (steps_command (i := .seed) rfl rfl hexec hvidle hdone hscript)
  have hcheck := hseed.trans (steps_of_perform rfl (expectNoErr_of_ok hverr))
  exact ⟨_, hcheck, rfl, hv.withHost (u := regRead offStatus { regRead offStatus v with script := _ }) hv.call⟩

end Begin

/-! ## The last action -/

theorem State.readValue_dst {s : State} (hidle : s.inFlight = none) : s.readValue offDst = s.dst :=
  State.readValue_of_idle hidle offDst

section FinishCall

variable {s : State} {c : StreamCall} {p : Nat} (hidle : s.inFlight = none) (hcall : s.call = c) (hdst : s.dst.toNat = p)

include hidle hcall hdst

theorem finishCall_of_noTail (hroom : c.out + c.cap - p < tailSize c.vs) :
    finishCall s = .next { regRead offDst s with callResult := .returned 0 } := by
  subst hcall hdst
  simp [finishCall, State.readValue_dst hidle, hroom]

theorem finishCall_of_room (hroom : tailSize c.vs ≤ c.out + c.cap - p)
    (hsrc : c.src + c.vs ≤ 2 ^ s.cfg.aw) (hsrcPop : covers s.cfg c.src (c.src + c.vs) = true)
    (hout : p + tailSize c.vs ≤ 2 ^ s.cfg.aw) (houtPop : covers s.cfg p (p + tailSize c.vs) = true) :
    finishCall s = .next { regRead offDst s with
      mem := s.mem.write p (tailBytes c.vs (s.mem.readBytes c.src c.vs))
      callResult := .returned (p + tailSize c.vs - c.out) } := by
  subst hcall hdst
  have hkept := handOffKept_of_idle (s := regRead offDst s) hidle
  simp only [finishCall, State.regRead_rdata, State.readValue_dst hidle, if_neg (Nat.not_lt.mpr hroom)]
  rw [hostAccess_of_ok (s := regRead offDst s) (.inr hsrc) hsrcPop (hkept _ _ _),
    hostAccess_of_ok (s := regRead offDst s) (.inr hout) houtPop (hkept _ _ _)]
  rfl

end FinishCall

section Finish

variable {m : Memory} {c : StreamCall} {lv out : List Byte} {t : State} {rest : List HostAction}
  (h : Streaming m c lv out t) (hs : t.script = .finishStream :: rest)

include h hs

/-- Without room for the tail the call returns 0 (R179). -/
theorem Streaming.callEnds_of_noTail (hroom : c.cap - out.length < tailSize c.vs) : CallEnds t rest (.returned 0) := by
  obtain ⟨-, hidle, -, -⟩ := h.ready
  exact ⟨_, steps_of_perform hs (finishCall_of_noTail (s := { t with script := rest }) hidle h.call h.dst (by omega)),
    rfl, rfl⟩

/-- With room for the tail it stands behind the blocks, and the call returns the length of the stream (R179, R186). -/
theorem Streaming.steps_finish (hroom : tailSize c.vs ≤ c.cap - out.length) :
    ∃ u, Steps t u ∧ u.script = rest ∧
      u.callResult = .returned (out ++ tailBytes c.vs ((callRecords m c).headD [])).length ∧
      u.mem.readBytes c.out (out ++ tailBytes c.vs ((callRecords m c).headD [])).length =
        out ++ tailBytes c.vs ((callRecords m c).headD []) := by
  obtain ⟨-, hidle, -, -⟩ := h.ready
  have hspace := h.placed.outSpace
  have hrecord := h.placed.vs_le
  have hsrc : c.src + c.vs ≤ 2 ^ t.cfg.aw := (Nat.add_le_add_left hrecord _).trans h.placed.srcSpace
  have hfirst := h.placed.readBytes_src h.source
  have htail : (tailBytes c.vs (t.mem.readBytes c.src c.vs)).length = tailSize c.vs :=
    tailBytes_length (Memory.readBytes_length _ _ _)
  have hfits := h.fits
  have hfinish := finishCall_of_room (s := { t with script := rest }) hidle h.call h.dst (by omega) hsrc
    (covers_mono h.placed.srcPopulated le_rfl (by omega)) (show _ ≤ 2 ^ t.cfg.aw by omega)
    (covers_mono h.placed.outPopulated (by omega) (by omega))
  refine ⟨_, steps_of_perform hs hfinish, rfl, ?_, ?_⟩
  · rw [List.length_append, ← hfirst, htail, Nat.add_assoc, Nat.add_sub_cancel_left]
  · rw [← hfirst]
    exact Memory.readBytes_write_append h.written _

end Finish

/-! ## The whole call -/

/-- The host comes to the end of its procedure: with 0 if `encode_stream` is `Null`, and else with its length and with its
bytes at the destination (R187). -/
theorem steps_stream {s : State} {c : StreamCall} {rest : List HostAction} (hs : s.script = .encodeStream c :: rest)
    (hplaced : c.Placed s.cfg) (hready : s.ready) (hend : c.out + c.cap < 2 ^ s.cfg.aw) :
    (encodeStream (callRecords s.mem c) c.vs c.cap = none → CallEnds s rest (.returned 0)) ∧
      ∀ r, encodeStream (callRecords s.mem c) c.vs c.cap = some r →
        ∃ u, Steps s u ∧ u.script = rest ∧ u.callResult = .returned r.length ∧ u.mem.readBytes c.out r.length = r := by
  rw [encodeStream, blocksOf_callRecords]
  rcases Nat.lt_or_ge c.cap (1 + c.vs) with hshort | hroom
  · rw [if_pos hshort]
    exact ⟨fun _ => callEnds_of_short hs hplaced hshort, nofun⟩
  rw [if_neg (Nat.not_lt.mpr hroom)]
  obtain ⟨t, hst, hts, ht⟩ := steps_streaming hs hplaced hready hroom
  obtain ⟨hnone, hsome⟩ := ht.steps_blocks (fun j hj => List.mem_range.mp hj) (cfg_of_steps hst ▸ hend) hts
  cases hblocks : blockLoop c.vs c.cap ((List.range (blockCount c.vs c.count)).map (callBlock s.mem c))
    ((callRecords s.mem c).headD []) [formatByte] with
  | none => exact ⟨fun _ => .of_steps hst (hnone hblocks), nofun⟩
  | some out =>
    obtain ⟨u, lv, htu, hus, hu⟩ := hsome out hblocks
    have hsu := hst.trans htu
    rcases Nat.lt_or_ge (c.cap - out.length) (tailSize c.vs) with hshort | hroom
    · simp only [if_pos hshort]
      exact ⟨fun _ => .of_steps hsu (hu.callEnds_of_noTail hus hshort), nofun⟩
    · simp only [if_neg (Nat.not_lt.mpr hroom)]
      obtain ⟨v, huv, hv⟩ := hu.steps_finish hus hroom
      refine ⟨nofun, ?_⟩
      rintro r ⟨⟩
      exact ⟨v, hsu.trans huv, hv⟩

/-- Settles O54: the procedure keeps to the loop of `encode_stream`, block by block. -/
theorem streamScriptRealisesEncodeStream : Obligations.StreamScriptRealisesEncodeStream := by
  intro s c rest hinv hready hs hlegal hcount hend hsrc hapart hout hsrcPop
  obtain ⟨-, haw, -⟩ := hinv.cfgLegal
  have hplaced : c.Placed s.cfg := ⟨hlegal, hcount, haw, hend.le, hsrc, hapart, hout, hsrcPop⟩
  obtain ⟨hnone, hsome⟩ := steps_stream hs hplaced hready hend
  rw [← callRecords]
  cases hr : encodeStream (callRecords s.mem c) c.vs c.cap with
  | none =>
    obtain ⟨t, hst, ht⟩ := hnone hr
    obtain ⟨k, hk⟩ := exists_run_of_steps hst
    exact ⟨k, t, hk, ht⟩
  | some r =>
    obtain ⟨t, hst, ht⟩ := hsome r hr
    obtain ⟨k, hk⟩ := exists_run_of_steps hst
    exact ⟨k, t, hk, ht⟩

/-- The first block meets a window that is inverted (R31, R65, R186). -/
theorem callEnds_of_top {s : State} {c : StreamCall} {rest : List HostAction} (hs : s.script = .encodeStream c :: rest)
    (hplaced : c.Placed s.cfg) (hready : s.ready) (htop : c.out + c.cap = 2 ^ s.cfg.aw) (hroom : 1 + c.vs ≤ c.cap) :
    CallEnds s rest .programmingError := by
  obtain ⟨t, hst, hts, ht⟩ := steps_streaming hs hplaced hready hroom
  have hblocks := blockCount_pos hplaced.legal hplaced.count
  obtain ⟨n, hn⟩ := Nat.exists_eq_add_of_le' hblocks
  rw [hn, List.range_succ_eq_map, List.flatMap_cons, List.append_assoc] at hts
  have hends := ht.callEnds_of_top _ hblocks (cfg_of_steps hst ▸ htop) Nat.one_pos hts
  rw [abandonCall_append fun _ => ne_finishStream_of_mem_blocks] at hends
  exact .of_steps hst hends

/-- Settles O60: the first capacity test fails, or the first block is reached. -/
theorem streamToTopOfMemoryIsProgrammingError : Obligations.StreamToTopOfMemoryIsProgrammingError := by
  intro s c rest hinv hready hs hlegal hcount htop hsrc hapart hout hsrcPop
  obtain ⟨-, haw, -⟩ := hinv.cfgLegal
  have hplaced : c.Placed s.cfg := ⟨hlegal, hcount, haw, htop.le, hsrc, .inr hapart, hout, hsrcPop⟩
  have hends : CallEnds s rest (if c.cap < 1 + c.vs then .returned 0 else .programmingError) := by
    split_ifs with hshort
    · exact callEnds_of_short hs hplaced hshort
    · exact callEnds_of_top hs hplaced hready htop (Nat.not_lt.mp hshort)
  obtain ⟨t, hst, ht⟩ := hends
  obtain ⟨k, hk⟩ := exists_run_of_steps hst
  exact ⟨k, t, hk, ht⟩

end Sys2Proof.Machine

/-! Lemmas and obligations: the effect of an Err, the order of ENCB's checks, and a reset in mid-command (R26, R27, R65,
R194, R199, R216). -/

namespace Sys2Proof.Machine

/-- Settles O22: the first check that fails decides the outcome of a command, whichever check it is. -/
theorem errLeavesEverythingElse : Obligations.ErrLeavesEverythingElse := fun _ _ _ _ hs h => exec_of_error hs h

/-- The legal values of `VSIZE` are the multiples of 4 from 4 to 256 (R26). -/
theorem State.vsizeLegal_iff (s : State) :
    s.vsizeLegal = true ↔ 0 < s.vsize.toNat ∧ s.vsize.toNat ≤ 256 ∧ s.vsize.toNat % 4 = 0 := by
  simp only [State.vsizeLegal, legalRecordSize, Bool.and_eq_true, decide_eq_true_eq, and_assoc]

/-- The legal values of `VCOUNT` are those from 1 to 256 (R27). -/
theorem State.vcountLegal_iff (s : State) : s.vcountLegal = true ↔ 0 < s.vcount.toNat ∧ s.vcount.toNat ≤ 256 := by
  simp only [State.vcountLegal, Bool.and_eq_true, decide_eq_true_eq]
  exact Iff.rfl

/-- Settles O23: each clause gives the checks before the one it reports their passing value. -/
theorem encbChecksInOrder : Obligations.EncbChecksInOrder := by
  intro s hs err vs n
  refine ⟨fun hillegal => ?vsize, fun hpos hmax hmod =>
    ⟨fun hillegal => ?count, fun hnpos hnmax => ⟨fun hinvalid => ?lvinvalid, fun hvalid hout => ?range⟩⟩⟩
  case vsize =>
    have hvsize : s.vsizeLegal = false := by
      rw [Bool.eq_false_iff, Ne, State.vsizeLegal_iff]
      omega
    exact exec_of_error hs (by rw [firstError, hvsize]; rfl)
  all_goals have hvsize : s.vsizeLegal = true := s.vsizeLegal_iff.mpr ⟨hpos, hmax, hmod⟩
  case count =>
    have hvcount : s.vcountLegal = false := by
      rw [Bool.eq_false_iff, Ne, State.vcountLegal_iff]
      omega
    exact exec_of_error hs (by rw [firstError, hvsize, hvcount]; rfl)
  all_goals have hvcount : s.vcountLegal = true := s.vcountLegal_iff.mpr ⟨hnpos, hnmax⟩
  case lvinvalid => exact exec_of_error hs (by rw [firstError, hvsize, hvcount, hinvalid]; rfl)
  case range =>
    have hrange : rangeFails .encb s = true := (rangeFails_iff rfl s).mpr hout
    exact exec_of_error hs (by rw [firstError, hvsize, hvcount, hvalid, hrange]; rfl)

/-- A window that takes free values keeps every byte outside it (R42, R216). -/
theorem State.spoilWindow_keepsOutsideWindow (s : State) : keepsOutsideWindow s s.spoilWindow := fun _ ha =>
  read_write_outside_window (State.freeBytes_length s s.capacity).le ha

/-- Settles O36: the reset touches memory only through the window of the command in flight, if that command has one. -/
theorem resetAbandonsCommand : Obligations.ResetAbandonsCommand := by
  intro s t c _ h
  rcases resetBlock_next h with ⟨-, rfl⟩ | ⟨-, rfl⟩
  · exact ⟨rfl, rfl, s.spoilWindow_keepsOutsideWindow⟩
  · exact ⟨rfl, rfl, fun _ _ => rfl⟩

end Sys2Proof.Machine
